-- ==== Sys2Proof/Word.lean ====
section
/-! DEFINITION. The words the device stores and exchanges, and the plainest arithmetic on them. -/

namespace Sys2Proof

/-- One byte of a management frame or of forwarded traffic. -/
abbrev Byte := BitVec 8

/-- A 7-bit bus address, never with its direction folded in (00_scope, Conventions). -/
abbrev Addr := BitVec 7

/-- A counter that stops at its greatest value (R36, R37, R45, R124, R177). -/
def satInc {w : Nat} (x : BitVec w) : BitVec w :=
  if x = BitVec.allOnes w then x else x + 1

end Sys2Proof
end

