-- ==== Sys2Proof/Syntax.lean ====
section
/-! DEFINITION. The commands of the block: one constructor per row of spec/opcode_table.json, with the
operands its rule gives it. Argument bytes of a management command are carried raw, as they stand in the
frame (R184), because their checks are part of the command's effect (R159). -/

namespace Sys2Proof

/-- An upstream port (00_scope). -/
inductive Port where
  | a
  | b
  deriving DecidableEq, Repr

/-- The direction that travels with an address (R2). -/
inductive Direction where
  | write
  | read
  deriving DecidableEq, Repr

/-- What an acknowledge slot carried (R2). -/
inductive Ack where
  | ack
  | nak
  deriving DecidableEq, Repr

/-- A segment number 0 to 7. -/
abbrev SegId := Fin 8

/-- A policy profile number 0 to 15 (R24). -/
abbrev ProfileId := Fin 16

/-- A route entry index 0 to 63 (R18). -/
abbrev RouteId := Fin 64

/-- One of the two lines of a segment. -/
inductive Line where
  | clock
  | data
  deriving DecidableEq, Repr

/-- The address outcomes a segment reports to a forwarding path (R101). -/
inductive AddrReport where
  | ack
  | nak
  | exhausted
  | fault
  deriving DecidableEq, Repr

/-- Where arbitration was lost: in the start or the address byte, or in a write data byte (R13). -/
inductive LossPoint where
  | address
  | data
  deriving DecidableEq, Repr

/-- How a recovery attempt ended: with success after a number of clock pulses, or in failure (R138). -/
inductive AttemptResult where
  | success (pulses : Nat)
  | failure
  deriving DecidableEq, Repr

/-- The commands. A happening names the port or the segment it concerns; a management command names the
port whose management write carries it, then its argument bytes in frame order. -/
inductive Instr where
  /-- POWER_ON, with the level of the RIGHTS strap that is latched (R17, R156). -/
  | powerOn (rightsHigh : Bool)
  /-- RST_ASSERT, with the level of the RIGHTS strap that is latched (R17, R156). -/
  | rstAssert (rightsHigh : Bool)
  /-- RESET_END (R17, R173). -/
  | resetEnd
  /-- START (R63, R4, R147). -/
  | start (p : Port)
  /-- REPEATED_START (R64). -/
  | repeatedStart (p : Port)
  /-- STOP (R80). -/
  | stop (p : Port)
  /-- ADDRESS (R66). -/
  | address (p : Port) (addr : Addr) (dir : Direction)
  /-- WRITE_BYTE (R105, R148). -/
  | writeByte (p : Port) (byte : Byte)
  /-- READ_BYTE_WANTED (R109, R153). -/
  | readByteWanted (p : Port)
  /-- CONTROLLER_ACKNOWLEDGE (R110, R111). -/
  | controllerAcknowledge (p : Port) (a : Ack)
  /-- BYTE_COMPLETE (R78). -/
  | byteComplete (p : Port)
  /-- BUS_ERROR (R79). -/
  | busError (p : Port)
  /-- MANAGEMENT_WRITE: a whole management write with its data bytes (R148 to R150). -/
  | managementWrite (p : Port) (bytes : List Byte)
  /-- IDENTIFY (R160). -/
  | identify (p : Port)
  /-- PORT_STATUS (R161). -/
  | portStatus (p : Port) (port : Byte)
  /-- PORT_CONFIGURE (R162). -/
  | portConfigure (p : Port) (port addr waitLimit idleLimit : Byte) (mask : BitVec 32)
  /-- RIGHTS_GRANT (R158). -/
  | rightsGrant (p : Port)
  /-- RIGHTS_REVOKE (R158). -/
  | rightsRevoke (p : Port)
  /-- ROUTE_LOAD (R49, R186). -/
  | routeLoad (p : Port) (index control matchAddr mask segments translate policy : Byte)
  /-- ROUTE_READ (R50). -/
  | routeRead (p : Port) (role index : Byte)
  /-- POLICY_LOAD (R49, R186). -/
  | policyLoad (p : Port)
      (profile flags maxWrite maxRead creditMax refillAmount refillPeriod stretchBudget : Byte)
  /-- POLICY_READ (R50). -/
  | policyRead (p : Port) (role profile : Byte)
  /-- TABLE_COMMIT (R52). -/
  | tableCommit (p : Port) (expected : BitVec 16) (force : Byte)
  /-- TABLE_DISCARD (R58). -/
  | tableDiscard (p : Port)
  /-- TABLE_STATUS (R51). -/
  | tableStatus (p : Port)
  /-- COUNTER_READ (R164). -/
  | counterRead (p : Port) (index : Byte)
  /-- SEGMENT_STATUS (R166). -/
  | segmentStatus (p : Port) (segment : Byte)
  /-- SEGMENT_CONFIGURE (R123). -/
  | segmentConfigure (p : Port) (segment speed quiet stretch retry autoRecover : Byte)
  /-- SEGMENT_ISOLATE (R141). -/
  | segmentIsolate (p : Port) (segment : Byte)
  /-- SEGMENT_RESTORE (R142). -/
  | segmentRestore (p : Port) (segment : Byte)
  /-- SEGMENT_RECOVER (R143). -/
  | segmentRecover (p : Port) (segment : Byte)
  /-- LOG_PEEK (R168). -/
  | logPeek (p : Port)
  /-- LOG_POP (R169). -/
  | logPop (p : Port)
  /-- CONTEXT_RESET (R170). -/
  | contextReset (p : Port)
  /-- ADDRESS_WAIT_LIMIT (R75). -/
  | addressWaitLimit (p : Port)
  /-- IDLE_LIMIT (R78). -/
  | idleLimit (p : Port)
  /-- REFILL_TIMER (R33). -/
  | refillTimer (profile : ProfileId)
  /-- TIMESTAMP_TICK (R173). -/
  | timestampTick
  /-- QUIET_INTERVAL_OBSERVED (R125). -/
  | quietIntervalObserved (n : SegId)
  /-- DEFERRED_QUIET_OBSERVED (R131). -/
  | deferredQuietObserved (n : SegId)
  /-- ADDRESS_OUTCOME: segment n's report to the forwarding path of port p (R101, R102). -/
  | addressOutcome (p : Port) (n : SegId) (report : AddrReport)
  /-- WRITE_ACKNOWLEDGE (R106). -/
  | writeAcknowledge (n : SegId) (a : Ack)
  /-- READ_BYTE_RECEIVED (R109). -/
  | readByteReceived (n : SegId) (byte : Byte)
  /-- ACKNOWLEDGE_SLOT_DONE (R110). -/
  | acknowledgeSlotDone (n : SegId)
  /-- ARBITRATION_LOSS (R130, R132, R135). -/
  | arbitrationLoss (n : SegId) (point : LossPoint)
  /-- SEGMENT_START_SEEN (R14). -/
  | segmentStartSeen (n : SegId)
  /-- SEGMENT_STOP_SEEN (R14, R127). -/
  | segmentStopSeen (n : SegId)
  /-- LINE_LOW_WITHOUT_START (R126). -/
  | lineLowWithoutStart (n : SegId) (line : Line)
  /-- STRETCH_FAULT (R133). -/
  | stretchFault (n : SegId)
  /-- STUCK_LINE_FAULT (R128). -/
  | stuckLineFault (n : SegId) (line : Line)
  /-- STRETCH_BUDGET (R115). -/
  | stretchBudget (n : SegId)
  /-- CLOSING_STOP_DRIVEN (R135). -/
  | closingStopDriven (n : SegId)
  /-- RECOVERY_ATTEMPT_END (R138). -/
  | recoveryAttemptEnd (n : SegId) (result : AttemptResult)
  /-- RECOVERY_WAIT_END (R138). -/
  | recoveryWaitEnd (n : SegId)
  /-- COPY_BACK_END (R56). -/
  | copyBackEnd
  deriving DecidableEq, Repr

end Sys2Proof
end

