-- ==== Sys2Proof/Config.lean ====
section
/-! DEFINITION. The constants the spec fixes, and the two choices it leaves open. -/

namespace Sys2Proof.Config

/-- The vendor code IDENTIFY returns (R160). -/
def vendorCode : BitVec 16 := 0x0CD7

/-- The part code IDENTIFY returns (R160). -/
def partCode : BitVec 16 := 0x8502

/-- The revision IDENTIFY returns (R160). -/
def revision : Byte := 0x01

/-- The management address of both ports after reset (R146). -/
def resetManagementAddress : Addr := 0x5C

/-- The address wait limit after reset, in ms (R61, R146). -/
def resetWaitLimit : Byte := 8

/-- The idle limit after reset, in ms (R61, R146). -/
def resetIdleLimit : Byte := 40

/-- The alert mask after reset: every kind except TRANSACTION, bits 1 to 22 (R146, R187). -/
def resetAlertMask : BitVec 32 := 0x007FFFFE

/-- The bits of the alert mask that are stored: the 23 kind codes, 1 to 23 (R184, R187). -/
def alertMaskBits : BitVec 32 := 0x00FFFFFE

/-- The greatest number of records the event log holds (R172, R176). -/
def logCapacity : Nat := 32

/-- The byte returned on upstream reads answered without target data (00_scope, "Fill byte"). -/
def fillByte : Byte := 0xFF

/-- The recovery attempt that isolates the segment when it fails (R138). -/
def recoveryAttempts : Nat := 3

/-- FREE VALUE (notes/assumptions/9). A forced take that meets both contexts in WAITING aborts both (R54),
and the spec gives no order; the examination after the first withdrawal (R92) makes the order visible.
`forcedAbortAFirst k` says, for the k-th such take, whether port A's context is the one aborted first. -/
opaque forcedAbortAFirst : Nat → Bool

/-- FREE VALUE (notes/assumptions/27). A foreign start on a segment that is opening an address phase is a
loss at the start while the device has not driven its own (R13, R91, R130), and a segment bus error once it
has (R14, R134); each segment starts as soon as its lines allow (R100), at a moment that is no command.
`foreignStartFirst k` says whether the k-th free choice finds the device's own start not yet driven. -/
opaque foreignStartFirst : Nat → Bool

end Sys2Proof.Config
end

