-- ==== Sys2Proof/Machine/State.lean ====
section
/-! DEFINITION. The state of the Reftra 8S2: every record, counter, timer, buffer and output the spec
gives a block, one structure per block, and the state after reset. What the spec shows under two names is
stored once (notes/assumptions/16). -/

namespace Sys2Proof.Machine

/-- No command stops the device with a fault: the spec gives every command its effect. -/
inductive Fault where
  deriving DecidableEq, Repr

/-- Why a command has no next state. -/
inductive Refusal where
  /-- Raised by exec for a row without a meaning. None is left. Safe: the model stops. -/
  | notModelled (mnemonic : String)
  /-- Raised by RECOVERY_ATTEMPT_END with more than the 16 clock pulses an attempt can drive (R137): no
  happening of the part carries that operand. Safe: the model stops. -/
  | operandOutOfRange
  deriving DecidableEq, Repr

/-- One value for each upstream port. -/
structure PerPort (α : Type) where
  a : α
  b : α
  deriving DecidableEq, Repr

/-! ## The upstream port engine (R4, R6, R7, R9) -/

/-- The bus tracker of a port engine (R4). -/
inductive Tracker where
  | idle
  | busy
  deriving DecidableEq, Repr

/-- Why the engine is holding the upstream clock low: at the acknowledge slot of an address or a write
byte (R6), or for a wanted read byte (R7). -/
inductive Hold where
  | none
  | address
  | write
  | read
  deriving DecidableEq, Repr

/-- The upstream port engine. Its handling mode is computed, by `State.passive` (R10). -/
structure Engine where
  tracker : Tracker
  /-- Bits taken in the current byte (R2): 0 between bytes, 8 after the eighth bit. -/
  bits : Nat
  /-- The byte shifter: the byte last taken, or the byte being sent (1.2). -/
  shifter : Byte
  /-- The next byte is an address byte: a start or repeated start has been seen and no byte since (R2). -/
  addressNext : Bool
  hold : Hold
  /-- The acknowledge the engine gives for the byte it received (R6), until its slot ends. -/
  ack : Option Ack
  /-- The byte supplied for transmission (R7), until the controller's acknowledge is taken. -/
  sending : Option Byte
  /-- The controller has given NAK: no further byte of this address phase is wanted (R7). -/
  readOver : Bool
  /-- The device has given NAK to the address byte of this address phase, for whose rest the engine is
  passive (R10). -/
  addressNaked : Bool
  deriving DecidableEq, Repr

/-- The engine after reset: IDLE, no bits taken, no line driven (R4). -/
def Engine.reset : Engine :=
  ⟨.idle, 0, 0, false, .none, none, none, false, false⟩

/-! ## The transaction context (R60) -/

/-- The ten states of a context (4.1). -/
inductive CtxState where
  | idle
  | ignoring
  | mgmtWrite
  | mgmtRead
  | waiting
  | addressing
  | writing
  | reading
  | limited
  | aborted
  deriving DecidableEq, Repr

/-- The context record (R60). Its held set and its request set are computed, from the segment records and
from the arbiter's wait list. A running timer is held by the limit its run started with (R61). -/
structure Context where
  state : CtxState
  direction : Option Direction
  upstream : Option Addr
  route : Option RouteId
  policy : Option ProfileId
  /-- The pinned generation. -/
  pin : Option (BitVec 16)
  phaseCount : Option Byte
  traceOwed : Bool
  /-- The address wait timer: stopped, or running under this limit in ms. -/
  waitTimer : Option Byte
  /-- The idle timer: stopped, or running under this limit in ms. -/
  idleTimer : Option Byte
  deriving DecidableEq, Repr

/-- The context after reset and after a stop (R61, R80). -/
def Context.idle : Context :=
  ⟨.idle, none, none, none, none, none, none, false, none, none⟩

/-! ## The forwarding path (R99) -/

/-- The stages of a forwarding path (6.1). -/
inductive Stage where
  | empty
  | address
  | between
  | writeByte
  | readReceiving
  | readPresented
  | readEnded
  deriving DecidableEq, Repr

/-- How the outcomes of several segments combine (R99). -/
inductive Aggregation where
  | single
  | any
  | all
  deriving DecidableEq, Repr

/-- What the path knows of one segment taking part (R99). -/
inductive SegOutcome where
  | pending
  | ack
  | nak
  | exhausted
  | fault
  deriving DecidableEq, Repr

/-- What the path records at the claim and keeps until the phase ends (R99, R100). -/
structure Claim where
  /-- The downstream address (R22). -/
  address : Addr
  direction : Direction
  aggregation : Aggregation
  maxWrite : Byte
  maxRead : Byte
  /-- The stretch budget in ms, 0 for off. -/
  budget : Byte
  deriving DecidableEq, Repr

/-- The path record (R99). -/
structure Path where
  stage : Stage
  claim : Option Claim
  /-- The outcome of each segment taking part, in ADDRESS and WRITE_BYTE. -/
  outcomes : Vector (Option SegOutcome) 8
  byte : Option Byte
  /-- Target sending, in BETWEEN of a read phase. -/
  targetSending : Option Bool
  /-- In READ_PRESENTED: the controller's ACK is being mirrored downstream (R110). -/
  mirroring : Bool
  /-- A read-byte-wanted report kept until the mirrored slot ends (R110). -/
  wanted : Bool
  /-- The stretch sums in ms (R12, R114). -/
  sums : Vector Nat 8
  deriving DecidableEq, Repr

/-- No segment takes part. -/
def noOutcomes : Vector (Option SegOutcome) 8 := Vector.replicate 8 none

/-- The path after reset (R99). -/
def Path.reset : Path :=
  ⟨.empty, none, noOutcomes, none, none, false, false, Vector.replicate 8 0⟩

/-! ## The management dispatcher's record of a port (R146) -/

/-- The management rights of a port (R156). -/
inductive Rights where
  | readOnly
  | full
  deriving DecidableEq, Repr

/-- The management write being received (R146, R148). -/
structure Reception where
  bytes : List Byte
  count : Nat
  refused : Bool
  deriving DecidableEq, Repr

/-- A reception as the context enters MGMT_WRITE (R148). -/
def Reception.empty : Reception := ⟨[], 0, false⟩

/-- The command awaiting its final response, and the segment it names (R146, R154). -/
inductive PendingCommand where
  | tableDiscard
  | segmentRecover (n : SegId)
  | segmentIsolate (n : SegId)
  deriving DecidableEq, Repr

/-- The statuses a response can carry (R153, R185). -/
inductive Status where
  | ok
  | pending
  | none
  | checkError
  | lengthError
  | unknownCommand
  | deniedRights
  | badArgument
  | busy
  | stale
  | invalid
  | wrongState
  | empty
  | aborted
  deriving DecidableEq, Repr

/-- The response buffer of a port (R152). -/
structure Response where
  status : Status
  data : List Byte
  deriving DecidableEq, Repr

/-- The dispatcher's record of one port (R146). -/
structure MgmtRecord where
  rights : Rights
  /-- The stored management address. -/
  storedAddr : Addr
  /-- The management address in effect (R147). -/
  effAddr : Addr
  waitLimit : Byte
  idleLimit : Byte
  alertMask : BitVec 32
  reception : Option Reception
  /-- The command context: present while the port is PENDING (R154). -/
  command : Option PendingCommand
  response : Response
  /-- In MGMT_READ: the bytes of the copied response not yet supplied (R153). -/
  readCopy : Option (List Byte)
  deriving DecidableEq, Repr

/-- The record after reset, with the rights the strap gives (R146, R156). -/
def MgmtRecord.reset (rights : Rights) : MgmtRecord :=
  ⟨rights, Config.resetManagementAddress, Config.resetManagementAddress, Config.resetWaitLimit,
    Config.resetIdleLimit, Config.resetAlertMask, none, none, ⟨.none, []⟩, none⟩

/-! ## The table controller (R18, R24, R42) -/

/-- A set of segments as one byte: bit n is set when segment n is a member (R184). -/
abbrev SegSet := BitVec 8

/-- What a match does; a DENY entry carries no segments, translate or policy (R18). -/
inductive RouteAction where
  | deny
  | forward (segments : SegSet) (translate : Addr) (policy : ProfileId)
  deriving DecidableEq, Repr

/-- A route entry (R18). -/
structure RouteEntry where
  valid : Bool
  /-- Port A is a member of the entry's ports. -/
  portA : Bool
  /-- Port B is a member of the entry's ports. -/
  portB : Bool
  matchAddr : Addr
  mask : Addr
  action : RouteAction
  deriving DecidableEq, Repr

/-- The reset content of a route entry (R19). -/
def RouteEntry.reset : RouteEntry :=
  ⟨false, true, true, 0, 0, .forward 1 0 0⟩

/-- The fan-out mode of a profile (R28). -/
inductive FanOut where
  | any
  | all
  deriving DecidableEq, Repr

/-- A policy profile (R24). -/
structure Profile where
  writeAllowed : Bool
  readAllowed : Bool
  maxWrite : Byte
  maxRead : Byte
  creditMax : Byte
  refillAmount : Byte
  refillPeriod : Byte
  stretchBudget : Byte
  fanOut : FanOut
  chaining : Bool
  logTransactions : Bool
  logDenials : Bool
  deriving DecidableEq, Repr

/-- The reset content of a profile (R24). -/
def Profile.reset : Profile :=
  ⟨true, true, 0, 0, 0, 1, 10, 0, .any, true, false, true⟩

/-- A bank: 64 route entries and 16 profiles (3.1). -/
structure Bank where
  entries : Vector RouteEntry 64
  profiles : Vector Profile 16
  deriving DecidableEq, Repr

/-- The reset content of a bank (R19, R24). -/
def Bank.reset : Bank :=
  ⟨Vector.replicate 64 RouteEntry.reset, Vector.replicate 16 Profile.reset⟩

/-- The two physical banks (3.1). -/
inductive BankId where
  | p
  | q
  deriving DecidableEq, Repr

/-- The states of the table controller (R42). -/
inductive TableState where
  | opened
  | draining
  | copying
  deriving DecidableEq, Repr

/-- The copy-back record: its cause, the port that issued the command and, for a discard, whether a
response is owed (R42). -/
inductive CopyBack where
  | commit (p : Port)
  | discard (p : Port) (owed : Bool)
  deriving DecidableEq, Repr

/-- The table controller (R42 to R48) with the hit and denial counters of the ACTIVE bank (R36, R37). -/
structure TableControl where
  state : TableState
  bankP : Bank
  bankQ : Bank
  /-- The bank whose role is ACTIVE. -/
  activeBank : BankId
  activeGen : BitVec 16
  /-- In DRAINING: the generation of the RETIRING bank. -/
  retiringGen : Option (BitVec 16)
  revision : BitVec 16
  activePins : Nat
  retiringPins : Nat
  hits : Vector (BitVec 32) 64
  denials : Vector (BitVec 16) 64
  copyBack : Option CopyBack
  deriving DecidableEq, Repr

/-- The table controller after reset (R43). -/
def TableControl.reset : TableControl :=
  ⟨.opened, Bank.reset, Bank.reset, .p, 0, none, 0, 0, 0, Vector.replicate 64 0,
    Vector.replicate 64 0, none⟩

/-! ## The credit unit (R32) -/

/-- The live credits of one profile number: the count, and the refill timer, stopped or running under the
period of its current run in ms (R32, R33). -/
structure Credit where
  count : Byte
  timer : Option Byte
  deriving DecidableEq, Repr

/-! ## The segment arbiter (R86) -/

/-- What isolation of a member does to a waiting request (R86, R93). -/
inductive IsolationHandling where
  | withdraw
  | drop
  deriving DecidableEq, Repr

/-- A request in the wait list (R86). -/
structure Request where
  port : Port
  segments : SegSet
  handling : IsolationHandling
  deriving DecidableEq, Repr

/-! ## The segment controllers (R122) -/

/-- The speeds of a segment (R15). -/
inductive Speed where
  | khz100
  | khz400
  | mhz1
  deriving DecidableEq, Repr

/-- The configuration of a segment (R123); the quiet interval in units of 10 µs, the stretch limit in ms. -/
structure SegConfig where
  speed : Speed
  quiet : Byte
  stretch : Byte
  retry : Byte
  autoRecover : Bool
  deriving DecidableEq, Repr

/-- The default configuration (R123). -/
def SegConfig.reset : SegConfig := ⟨.khz100, 5, 20, 3, true⟩

/-- What a segment has to finish on its bus before the stop, or the repeated start, that follows
(R100, R113, R117). -/
inductive Completion where
  /-- Nothing. -/
  | none
  /-- The address byte in progress; for a read whose target then gives ACK, a byte clocked in and NAKed. -/
  | finishAddress (dir : Direction)
  /-- One byte clocked in from the target, given NAK and discarded. -/
  | clockByteNak
  /-- The write byte in progress. -/
  | finishWrite
  /-- The read byte in progress, given NAK and discarded. -/
  | finishReadNak
  /-- The acknowledge slot, with NAK. -/
  | slotNak
  deriving DecidableEq, Repr

/-- How a held segment opens its address phase (R11, R100): a start at a grant and at a retry, a repeated
start where the segment is kept (R131). -/
inductive Opening where
  | start
  | repeatedStart
  deriving DecidableEq, Repr

/-- What a segment record holds in HELD (R122). -/
structure HeldRec where
  /-- Held by: also the arbiter's assignment (R87). -/
  port : Port
  deferred : Bool
  /-- Deferred only: the winner's stop has been seen, and its quiet observation is running or, after
  EXHAUSTED, over (R131, R136). -/
  winnerStop : Bool
  /-- Arbitration tries. -/
  tries : Nat
  /-- What a kept segment finishes before its repeated start (R100). -/
  completion : Completion
  opening : Opening
  deriving DecidableEq, Repr

/-- Isolation pending: the port whose SEGMENT ISOLATE awaits the end of closing, and whether a response is
owed to it (R122). -/
structure IsolationPending where
  port : Port
  owed : Bool
  deriving DecidableEq, Repr

/-- What a segment record holds in CLOSING (R122). -/
structure ClosingRec where
  deferred : Bool
  tries : Nat
  completion : Completion
  isolation : Option IsolationPending
  deriving DecidableEq, Repr

/-- What a segment record holds in RECOVERING: the port whose SEGMENT RECOVER awaits the result, and
whether the controller is in the wait after a failed attempt (R122, R138). -/
structure RecoveringRec where
  requestedBy : Option Port
  betweenAttempts : Bool
  deriving DecidableEq, Repr

/-- The states of a segment, each with the record fields present in it (R122). -/
inductive SegState where
  | unsynced
  | idle
  | foreign
  | held (h : HeldRec)
  | closing (c : ClosingRec)
  | recovering (r : RecoveringRec)
  | isolated
  deriving DecidableEq, Repr

/-- The line measurements of a segment in ms (R12, R122), as they stood at the last happening that fixed
them; no row advances them in between (notes/assumptions/4). -/
structure LineMeasure where
  /-- The current held interval. -/
  heldInterval : Nat
  /-- The time the clock line has read low. -/
  clockLow : Nat
  /-- The time the data line has read low. -/
  dataLow : Nat
  /-- The time the data line has read low while the clock line reads high. -/
  dataLowClockHigh : Nat
  deriving DecidableEq, Repr

/-- Measurements that start anew (R17). -/
def LineMeasure.zero : LineMeasure := ⟨0, 0, 0, 0⟩

/-- A segment record (R122). -/
structure Segment where
  state : SegState
  /-- The quiet observation under way, with the quiet interval it uses, in units of 10 µs (R16); none where
  a line is known to read low (notes/assumptions/24). -/
  quiet : Option Byte
  stored : SegConfig
  inUse : SegConfig
  grants : BitVec 32
  aborts : BitVec 16
  arbLosses : BitVec 16
  faults : BitVec 16
  recoveries : BitVec 8
  failedAttempts : Nat
  lines : LineMeasure
  /-- Bits taken in the current byte of the segment (R2): 0 between bytes, 8 after the eighth bit of a read
  byte (notes/assumptions/6). -/
  bits : Nat
  deriving DecidableEq, Repr

/-- A segment after reset: UNSYNCED, watching for quiet (R125, R145). -/
def Segment.reset : Segment :=
  ⟨.unsynced, some SegConfig.reset.quiet, SegConfig.reset, SegConfig.reset, 0, 0, 0, 0, 0, 0,
    LineMeasure.zero, 0⟩

/-! ## The event log (R172, R174) -/

/-- The 23 event kinds (9.3). -/
inductive EventKind where
  | denyRule
  | denyChain
  | denyDirection
  | denySegmentDown
  | denyCredits
  | denyWait
  | arbExhausted
  | arbLostData
  | lengthWrite
  | lengthRead
  | stretchBudget
  | stretchLimit
  | segmentBusError
  | upstreamBusError
  | upstreamIdle
  | segmentFault
  | segmentRecovered
  | segmentIsolated
  | segmentRestored
  | commitDone
  | commitForced
  | mgmtCheckError
  | transaction
  deriving DecidableEq, Repr

/-- An event as its block raises it (R174). -/
structure Event where
  kind : EventKind
  port : Option Port
  segment : Option SegId
  upstream : Option Addr
  route : Option RouteId
  detail : Byte
  deriving DecidableEq, Repr

/-- A record: an event with the sequence number and the timestamp the log gave it (R174, R175). -/
structure LogRecord where
  sequence : BitVec 16
  timestamp : BitVec 32
  event : Event
  deriving DecidableEq, Repr

/-- The event log and its two outputs (R172, R181). -/
structure EventLog where
  /-- Oldest first. -/
  records : List LogRecord
  nextSequence : BitVec 16
  lost : BitVec 16
  timestamp : BitVec 32
  /-- The alert output of each port is driven low. -/
  alerts : PerPort Bool
  deriving DecidableEq, Repr

/-- The event log after reset (R172). -/
def EventLog.reset : EventLog := ⟨[], 0, 0, 0, ⟨false, false⟩⟩

/-! ## The device -/

/-- The state of the device, with the queue of commands waiting. -/
structure State where
  /-- The commands waiting, first in, first out (the model's own). -/
  pending : List Instr
  /-- The device is in power-on reset, or RST# is low (R17). -/
  resetActive : Bool
  engines : PerPort Engine
  contexts : PerPort Context
  paths : PerPort Path
  mgmt : PerPort MgmtRecord
  table : TableControl
  credits : Vector Credit 16
  /-- The arbiter's wait list, oldest first (R86). -/
  waitList : List Request
  segments : Vector Segment 8
  log : EventLog
  /-- The number of free choices consumed so far (the model's own; notes/assumptions/9 and 27). -/
  freeChoices : Nat
  deriving DecidableEq, Repr

/-- Every block at its reset values, with the RIGHTS strap latched at the level given (R17, R156). -/
def State.atReset (rightsHigh : Bool) : State where
  pending := []
  resetActive := false
  engines := ⟨Engine.reset, Engine.reset⟩
  contexts := ⟨Context.idle, Context.idle⟩
  paths := ⟨Path.reset, Path.reset⟩
  mgmt := ⟨MgmtRecord.reset .full, MgmtRecord.reset (if rightsHigh then .full else .readOnly)⟩
  table := TableControl.reset
  credits := Vector.replicate 16 ⟨0, none⟩
  waitList := []
  segments := Vector.replicate 8 Segment.reset
  log := EventLog.reset
  freeChoices := 0

/-- The device right after reset. The strap level low is the model's choice (notes/assumptions/1). -/
def State.reset : State := State.atReset false

end Sys2Proof.Machine
end

