-- ==== Sys2Proof/Machine/Flags.lean ====
section
/-! DEFINITION. The codes of the values the device reports (R184, R185, R188), the check byte (R149), the
byte order of numbers (R184) and the computation of the alert outputs (R181). -/

namespace Sys2Proof.Machine

/-- The other port. -/
def otherPort : Port → Port
  | .a => .b
  | .b => .a

/-- The byte that shows a port (R184). -/
def portCode : Port → Byte
  | .a => 0x00
  | .b => 0x01

/-- The byte that shows a port that may be absent (R184). -/
def portCodeOrAbsent : Option Port → Byte
  | some p => portCode p
  | none => 0xFF

/-- The code of the rights of a port (R184). -/
def rightsCode : Rights → Byte
  | .readOnly => 0x00
  | .full => 0x01

/-- The code of a context state (R184). -/
def ctxStateCode : CtxState → Byte
  | .idle => 0x00
  | .ignoring => 0x01
  | .mgmtWrite => 0x02
  | .mgmtRead => 0x03
  | .waiting => 0x04
  | .addressing => 0x05
  | .writing => 0x06
  | .reading => 0x07
  | .limited => 0x08
  | .aborted => 0x09

/-- The code of a table controller state (R184). -/
def tableStateCode : TableState → Byte
  | .opened => 0x00
  | .draining => 0x01
  | .copying => 0x02

/-- The code of a segment state (R184). -/
def segStateCode : SegState → Byte
  | .unsynced => 0x00
  | .idle => 0x01
  | .foreign => 0x02
  | .held _ => 0x03
  | .closing _ => 0x04
  | .recovering _ => 0x05
  | .isolated => 0x06

/-- The code of a status (R185). -/
def statusCode : Status → Byte
  | .ok => 0x00
  | .pending => 0x01
  | .none => 0x02
  | .checkError => 0x10
  | .lengthError => 0x11
  | .unknownCommand => 0x12
  | .deniedRights => 0x13
  | .badArgument => 0x20
  | .busy => 0x21
  | .stale => 0x22
  | .invalid => 0x23
  | .wrongState => 0x24
  | .empty => 0x25
  | .aborted => 0x26

/-- The code of an event kind, which is also its bit in the alert mask (R188). -/
def eventCode : EventKind → Nat
  | .denyRule => 0x01
  | .denyChain => 0x02
  | .denyDirection => 0x03
  | .denySegmentDown => 0x04
  | .denyCredits => 0x05
  | .denyWait => 0x06
  | .arbExhausted => 0x07
  | .arbLostData => 0x08
  | .lengthWrite => 0x09
  | .lengthRead => 0x0A
  | .stretchBudget => 0x0B
  | .stretchLimit => 0x0C
  | .segmentBusError => 0x0D
  | .upstreamBusError => 0x0E
  | .upstreamIdle => 0x0F
  | .segmentFault => 0x10
  | .segmentRecovered => 0x11
  | .segmentIsolated => 0x12
  | .segmentRestored => 0x13
  | .commitDone => 0x14
  | .commitForced => 0x15
  | .mgmtCheckError => 0x16
  | .transaction => 0x17

/-- The two bytes of a number, most significant first (R184). -/
def bytes16 (x : BitVec 16) : List Byte :=
  [x.extractLsb' 8 8, x.extractLsb' 0 8]

/-- The four bytes of a number, most significant first (R184). -/
def bytes32 (x : BitVec 32) : List Byte :=
  [x.extractLsb' 24 8, x.extractLsb' 16 8, x.extractLsb' 8 8, x.extractLsb' 0 8]

/-- One shift of the check register (R149, step 2). -/
def crcShift (r : Byte) : Byte :=
  if r.msb then (r <<< 1) ^^^ 0x1D else r <<< 1

/-- One byte taken into the check register: exclusive-or, then eight shifts (R149, step 2). -/
def crcByte (r b : Byte) : Byte :=
  crcShift (crcShift (crcShift (crcShift (crcShift (crcShift (crcShift (crcShift (r ^^^ b))))))))

/-- The check byte of a sequence of bytes (R149). -/
def checkByte (bs : List Byte) : Byte := bs.foldl crcByte 0xFF

/-- The bytes a management read returns for a response: status, length, data, check byte (R152). -/
def responseBytes (r : Response) : List Byte :=
  let body := statusCode r.status :: BitVec.ofNat 8 r.data.length :: r.data
  body ++ [checkByte body]

/-- The response form of a record, 12 bytes (R188). -/
def recordBytes (r : LogRecord) : List Byte :=
  bytes16 r.sequence ++ bytes32 r.timestamp ++
    [BitVec.ofNat 8 (eventCode r.event.kind), portCodeOrAbsent r.event.port,
      (r.event.segment.map fun n => BitVec.ofNat 8 n.val).getD 0xFF,
      (r.event.upstream.map fun x => x.setWidth 8).getD 0xFF,
      (r.event.route.map fun i => BitVec.ofNat 8 i.val).getD 0xFF,
      r.event.detail]

/-- The mask selects the kind (R181, R187). -/
def maskSelects (mask : BitVec 32) (k : EventKind) : Bool :=
  mask.getLsbD (eventCode k)

/-- The level an evaluation gives an alert output: driven low while the log holds a record whose kind the
port's mask selects (R181). -/
def alertLevel (mask : BitVec 32) (records : List LogRecord) : Bool :=
  records.any fun r => maskSelects mask r.event.kind

end Sys2Proof.Machine
end

