-- ==== Sys2Proof/Machine/Operands.lean ====
section
/-! DEFINITION. The reading of operands: segment sets, route entries and profiles in their byte layouts,
matching and translation of addresses, the structural checks of a commit, and the command codes of the
management frame with their argument checks. -/

namespace Sys2Proof.Machine

/-! ## Segment sets (R184) -/

/-- The segments in ascending order. -/
def segIds : List SegId := [0, 1, 2, 3, 4, 5, 6, 7]

/-- Segment n is a member of the set (R184). -/
def segMem (set : SegSet) (n : SegId) : Bool := set.getLsbD n.val

/-- The members of a set, in ascending order. -/
def segMembers (set : SegSet) : List SegId := segIds.filter (segMem set)

/-- The set with exactly one member: a route with a single segment (R28). -/
def segSingle (set : SegSet) : Bool := (segMembers set).length == 1

/-- The set of the segments that satisfy a test. -/
def segSetOf (f : SegId → Bool) : SegSet :=
  segIds.foldl (fun set n => if f n then set ||| (1#8 <<< n.val) else set) 0

/-! ## Matching and translation (R20, R22) -/

/-- The port is a member of the entry's ports. -/
def RouteEntry.hasPort (e : RouteEntry) : Port → Bool
  | .a => e.portA
  | .b => e.portB

/-- The match set of an entry contains the address: condition 3 of R20. -/
def RouteEntry.inMatchSet (e : RouteEntry) (addr : Addr) : Bool :=
  (addr &&& e.mask) == (e.matchAddr &&& e.mask)

/-- The entry matches the address on the port (R20). -/
def RouteEntry.hits (e : RouteEntry) (p : Port) (addr : Addr) : Bool :=
  e.valid && e.hasPort p && e.inMatchSet addr

/-- Translation: masked positions from the translate value, the others from the upstream address (R22). -/
def translated (mask translate addr : Addr) : Addr :=
  (translate &&& mask) ||| (addr &&& ~~~mask)

/-- Route lookup: the lowest index whose entry matches (R21). -/
def lookup (bank : Bank) (p : Port) (addr : Addr) : Option RouteId :=
  (List.finRange 64).find? fun i => (bank.entries[i]).hits p addr

/-! ## Validation at commit (R39, R40, R41) -/

/-- Check 4: the translated image contains an address of 120 to 127 (R40). -/
def reservedImage (mask translate : Addr) : Bool :=
  (translate ||| ~~~mask) &&& 0x78 == 0x78

/-- Check 5: the entry misuses address 0 (R40). -/
def zeroMisuse (matchAddr mask translate : Addr) : Bool :=
  (matchAddr &&& mask == 0 && !(mask == 0x7F && matchAddr == 0 && translate == 0)) ||
    (translate &&& mask == 0 && !(matchAddr &&& mask == 0))

/-- The lowest reason code among the checks an entry of the bank fails (R39, R40), or none. -/
def RouteEntry.failure (e : RouteEntry) (bank : Bank) : Option Byte :=
  if !e.valid then none
  else if !e.portA && !e.portB then some 1
  else match e.action with
    | .deny => none
    | .forward segments translate policy =>
      if segments == 0 then some 2
      else if !segSingle segments && (bank.profiles[policy]).readAllowed then some 3
      else if reservedImage e.mask translate then some 4
      else if zeroMisuse e.matchAddr e.mask translate then some 5
      else none

/-- The first failing entry of a bank and its reason code (R41), or none where the bank passes. -/
def bankFailure (bank : Bank) : Option (RouteId × Byte) :=
  (List.finRange 64).findSome? fun i => ((bank.entries[i]).failure bank).map fun r => (i, r)

/-! ## Record layouts (R186) -/

/-- The control byte of a route entry (R186). -/
def controlByte (e : RouteEntry) : Byte :=
  (if e.valid then 0x80 else 0) ||| (match e.action with | .deny => 0x40 | .forward .. => 0) |||
    (if e.portB then 0x02 else 0) ||| (if e.portA then 0x01 else 0)

/-- The seven bytes of a route entry (R186). -/
def routeBytes (i : RouteId) (e : RouteEntry) : List Byte :=
  [BitVec.ofNat 8 i.val, controlByte e, e.matchAddr.setWidth 8, e.mask.setWidth 8] ++
    match e.action with
    | .deny => [0, 0, 0]
    | .forward segments translate policy =>
      [segments, translate.setWidth 8, BitVec.ofNat 8 policy.val]

/-- The route entry its argument bytes spell; DENY keeps no segments, translate or policy (R18, R186). -/
def routeOfBytes (control matchAddr mask segments translate : Byte) (policy : ProfileId) :
    RouteEntry where
  valid := control.getLsbD 7
  portA := control.getLsbD 0
  portB := control.getLsbD 1
  matchAddr := matchAddr.setWidth 7
  mask := mask.setWidth 7
  action :=
    if control.getLsbD 6 then .deny else .forward segments (translate.setWidth 7) policy

/-- The flag byte of a profile (R186). -/
def flagByte (f : Profile) : Byte :=
  (if f.writeAllowed then 0x01 else 0) ||| (if f.readAllowed then 0x02 else 0) |||
    (match f.fanOut with | .any => 0 | .all => 0x04) ||| (if f.chaining then 0x08 else 0) |||
    (if f.logTransactions then 0x10 else 0) ||| (if f.logDenials then 0x20 else 0)

/-- The eight bytes of a profile (R186). -/
def profileBytes (i : ProfileId) (f : Profile) : List Byte :=
  [BitVec.ofNat 8 i.val, flagByte f, f.maxWrite, f.maxRead, f.creditMax, f.refillAmount,
    f.refillPeriod, f.stretchBudget]

/-- The profile its argument bytes spell (R186). -/
def profileOfBytes (flags maxWrite maxRead creditMax refillAmount refillPeriod stretchBudget : Byte) :
    Profile where
  writeAllowed := flags.getLsbD 0
  readAllowed := flags.getLsbD 1
  maxWrite := maxWrite
  maxRead := maxRead
  creditMax := creditMax
  refillAmount := refillAmount
  refillPeriod := refillPeriod
  stretchBudget := stretchBudget
  fanOut := if flags.getLsbD 2 then .all else .any
  chaining := flags.getLsbD 3
  logTransactions := flags.getLsbD 4
  logDenials := flags.getLsbD 5

/-- The speed its argument byte spells: bits 0 and 1, code 3 out of range (R159, R184). -/
def speedOfByte (b : Byte) : Option Speed :=
  match (b &&& 0x03).toNat with
  | 0 => some .khz100
  | 1 => some .khz400
  | 2 => some .mhz1
  | _ => none

/-! ## Argument ranges (R159) -/

/-- A port argument (R159, R184). -/
def portArg (b : Byte) : Option Port :=
  if b = 0 then some .a else if b = 1 then some .b else none

/-- A segment number (R159). -/
def segArg (b : Byte) : Option SegId :=
  if h : b.toNat < 8 then some ⟨b.toNat, h⟩ else none

/-- A route entry index (R159). -/
def routeArg (b : Byte) : Option RouteId :=
  if h : b.toNat < 64 then some ⟨b.toNat, h⟩ else none

/-- A profile number (R159). -/
def profileArg (b : Byte) : Option ProfileId :=
  if h : b.toNat < 16 then some ⟨b.toNat, h⟩ else none

/-- A yes-or-no argument (R159, R184). -/
def boolArg (b : Byte) : Option Bool :=
  if b = 0 then some false else if b = 1 then some true else none

/-- A bank role: false for ACTIVE, true for STAGING (R50, R184). -/
def stagingArg (b : Byte) : Option Bool := boolArg b

/-- A 7-bit field within its range: its top bit is clear (R159). -/
def sevenBit (b : Byte) : Bool := !b.msb

/-- A management address within its range, 1 to 119 (R159). -/
def managementAddrArg (b : Byte) : Bool := 1 ≤ b.toNat && b.toNat ≤ 119

/-! ## The commands of the management frame (R185) -/

/-- The commands a management write can carry. -/
inductive MgmtOp where
  | identify
  | portStatus
  | portConfigure
  | rightsGrant
  | rightsRevoke
  | routeLoad
  | routeRead
  | policyLoad
  | policyRead
  | tableCommit
  | tableDiscard
  | tableStatus
  | counterRead
  | segmentStatus
  | segmentConfigure
  | segmentIsolate
  | segmentRestore
  | segmentRecover
  | logPeek
  | logPop
  | contextReset
  deriving DecidableEq, Repr

/-- The commands in the order of the command table (R185). -/
def mgmtOps : List MgmtOp :=
  [.identify, .portStatus, .portConfigure, .rightsGrant, .rightsRevoke, .routeLoad, .routeRead,
    .policyLoad, .policyRead, .tableCommit, .tableDiscard, .tableStatus, .counterRead,
    .segmentStatus, .segmentConfigure, .segmentIsolate, .segmentRestore, .segmentRecover,
    .logPeek, .logPop, .contextReset]

/-- The code of a command (R185). -/
def opCode : MgmtOp → Byte
  | .identify => 0x01
  | .portStatus => 0x02
  | .portConfigure => 0x03
  | .rightsGrant => 0x04
  | .rightsRevoke => 0x05
  | .routeLoad => 0x10
  | .routeRead => 0x11
  | .policyLoad => 0x12
  | .policyRead => 0x13
  | .tableCommit => 0x14
  | .tableDiscard => 0x15
  | .tableStatus => 0x16
  | .counterRead => 0x17
  | .segmentStatus => 0x20
  | .segmentConfigure => 0x21
  | .segmentIsolate => 0x22
  | .segmentRestore => 0x23
  | .segmentRecover => 0x24
  | .logPeek => 0x30
  | .logPop => 0x31
  | .contextReset => 0x3F

/-- The command of a code byte, or none (R150 step 3). -/
def opOfCode (b : Byte) : Option MgmtOp := mgmtOps.find? fun o => opCode o == b

/-- The number of argument bytes of a command (R185). -/
def argCount : MgmtOp → Nat
  | .identify => 0
  | .portStatus => 1
  | .portConfigure => 8
  | .rightsGrant => 0
  | .rightsRevoke => 0
  | .routeLoad => 7
  | .routeRead => 2
  | .policyLoad => 8
  | .policyRead => 2
  | .tableCommit => 3
  | .tableDiscard => 0
  | .tableStatus => 0
  | .counterRead => 1
  | .segmentStatus => 1
  | .segmentConfigure => 6
  | .segmentIsolate => 1
  | .segmentRestore => 1
  | .segmentRecover => 1
  | .logPeek => 0
  | .logPop => 0
  | .contextReset => 0

/-- The command, with these arguments from this port, needs full rights (R157). PORT CONFIGURE needs them
unless its port argument names the issuing port. -/
def needsFull (o : MgmtOp) (p : Port) (args : List Byte) : Bool :=
  match o with
  | .identify | .portStatus | .routeRead | .policyRead | .tableStatus | .counterRead
  | .segmentStatus | .logPeek => false
  | .portConfigure => args.head? != some (portCode p)
  | .rightsGrant | .rightsRevoke | .routeLoad | .policyLoad | .tableCommit | .tableDiscard
  | .segmentConfigure | .segmentIsolate | .segmentRestore | .segmentRecover | .logPop
  | .contextReset => true

/-- The bytes a PORT CONFIGURE argument list carries for a 32-bit alert mask (R187). -/
def word16 (hi lo : Byte) : BitVec 16 := hi ++ lo

/-- A 32-bit number from its bytes, most significant first (R184). -/
def word32 (b3 b2 b1 b0 : Byte) : BitVec 32 := b3 ++ b2 ++ b1 ++ b0

end Sys2Proof.Machine
end

