-- ==== Sys2Proof/Machine/Ops.lean ====
section
/-! DEFINITION. The operations the commands share: the records of a port and of a segment, the event log,
pins, the release of segments, the wait list and its examination, refusals and aborts. -/

namespace Sys2Proof.Machine

/-! ## Records of a port -/

/-- The value of one port. -/
def PerPort.get {α : Type} (x : PerPort α) : Port → α
  | .a => x.a
  | .b => x.b

/-- One port's value replaced. -/
def PerPort.set {α : Type} (x : PerPort α) (p : Port) (v : α) : PerPort α :=
  match p with
  | .a => { x with a := v }
  | .b => { x with b := v }

/-- The engine of a port. -/
def State.engine (s : State) (p : Port) : Engine := s.engines.get p
/-- The context of a port. -/
def State.context (s : State) (p : Port) : Context := s.contexts.get p
/-- The forwarding path of a port. -/
def State.path (s : State) (p : Port) : Path := s.paths.get p
/-- The dispatcher's record of a port. -/
def State.record (s : State) (p : Port) : MgmtRecord := s.mgmt.get p
/-- The record of a segment. -/
def State.segment (s : State) (n : SegId) : Segment := s.segments[n]

/-- A port's engine changed. -/
def modEngine (p : Port) (f : Engine → Engine) (s : State) : State :=
  { s with engines := s.engines.set p (f (s.engine p)) }
/-- A port's context changed. -/
def modContext (p : Port) (f : Context → Context) (s : State) : State :=
  { s with contexts := s.contexts.set p (f (s.context p)) }
/-- A port's path changed. -/
def modPath (p : Port) (f : Path → Path) (s : State) : State :=
  { s with paths := s.paths.set p (f (s.path p)) }
/-- A port's management record changed. -/
def modRecord (p : Port) (f : MgmtRecord → MgmtRecord) (s : State) : State :=
  { s with mgmt := s.mgmt.set p (f (s.record p)) }
/-- A segment's record changed. -/
def modSegment (n : SegId) (f : Segment → Segment) (s : State) : State :=
  { s with segments := s.segments.set n (f (s.segment n)) }
/-- Every segment's record changed. -/
def modSegments (f : SegId → Segment → Segment) (s : State) : State :=
  { s with segments := Vector.ofFn fun n => f n s.segments[n] }
/-- The table controller changed. -/
def modTable (f : TableControl → TableControl) (s : State) : State :=
  { s with table := f s.table }

/-! ## The handling mode of an engine (R10) -/

/-- The context sets its engine to passive in IDLE and in IGNORING (R10). -/
def CtxState.passive : CtxState → Bool
  | .idle | .ignoring => true
  | _ => false

/-- The engine of a port is passive: in IDLE and IGNORING, and after a NAKed address for the rest of that
address phase (R10). -/
def State.passive (s : State) (p : Port) : Bool :=
  (s.context p).state.passive || (s.engine p).addressNaked

/-- WRITING, READING and LIMITED: a phase is being forwarded, and a repeated start may reach it (R64). -/
def CtxState.forwarding : CtxState → Bool
  | .writing | .reading | .limited => true
  | _ => false

/-! ## The event log (R175, R181) -/

/-- Both alert outputs evaluated from the stored content (R181). -/
def evalAlerts (s : State) : State :=
  let alerts : PerPort Bool :=
    ⟨alertLevel s.mgmt.a.alertMask s.log.records, alertLevel s.mgmt.b.alertMask s.log.records⟩
  { s with log := { s.log with alerts := alerts } }

/-- One port's alert output evaluated (R181, at a mask change). -/
def evalAlert (p : Port) (s : State) : State :=
  let alerts := s.log.alerts.set p (alertLevel (s.record p).alertMask s.log.records)
  { s with log := { s.log with alerts := alerts } }

/-- An event taken by the log: stored at the tail, or counted as lost when the log is full (R175). -/
def raise (e : Event) (s : State) : State :=
  if s.log.records.length < Config.logCapacity then
    let records := s.log.records ++ [⟨s.log.nextSequence, s.log.timestamp, e⟩]
    evalAlerts
      { s with log := { s.log with records := records, nextSequence := s.log.nextSequence + 1 } }
  else { s with log := { s.log with lost := satInc s.log.lost } }

/-- An event of a port's address phase: the port, and the address and route its context holds (R178). -/
def phaseEvent (kind : EventKind) (p : Port) (seg : Option SegId) (detail : Byte) (s : State) : Event :=
  ⟨kind, some p, seg, (s.context p).upstream, (s.context p).route, detail⟩

/-- An event with a port but no address phase. -/
def portEvent (kind : EventKind) (p : Port) (detail : Byte) : Event :=
  ⟨kind, some p, none, none, none, detail⟩

/-- An event of a segment with the port it concerns, if any, and no address phase. -/
def segmentEvent (kind : EventKind) (p : Option Port) (n : SegId) (detail : Byte) : Event :=
  ⟨kind, p, some n, none, none, detail⟩

/-! ## The response buffer (R152, R154) -/

/-- A response placed in a port's buffer. -/
def respond (p : Port) (status : Status) (data : List Byte) (s : State) : State :=
  modRecord p (fun r => { r with response := ⟨status, data⟩ }) s

/-- A command left PENDING: its context created, PENDING placed (R154). -/
def respondPending (p : Port) (c : PendingCommand) (s : State) : State :=
  modRecord p (fun r => { r with response := ⟨.pending, []⟩, command := some c }) s

/-- The final response of a PENDING command, which ends its command context (R154). -/
def respondFinal (p : Port) (status : Status) (data : List Byte) (s : State) : State :=
  modRecord p (fun r => { r with response := ⟨status, data⟩, command := none }) s

/-! ## The instructions a context gives its engine (R6, R7) -/

/-- An acknowledge instruction for an address byte: the hold of the upstream clock ends, and a NAK sets the
engine to passive for the rest of the address phase (R6, R10). -/
def answerAddress (p : Port) (a : Ack) : State → State :=
  modEngine p fun e => { e with hold := .none, ack := some a, addressNaked := a == .nak }

/-- An acknowledge instruction for a data byte: the hold of the upstream clock ends (R6). -/
def giveAck (p : Port) (a : Ack) : State → State :=
  modEngine p fun e => { e with hold := .none, ack := some a }

/-- A byte supplied for a wanted read byte: the hold of the upstream clock ends (R7). -/
def supply (p : Port) (b : Byte) : State → State :=
  modEngine p fun e => { e with hold := .none, sending := some b, shifter := b }

/-! ## Banks by role, pins (R42, R46, R47) -/

/-- The ACTIVE bank. -/
def TableControl.active (t : TableControl) : Bank :=
  match t.activeBank with
  | .p => t.bankP
  | .q => t.bankQ

/-- The bank that is not ACTIVE: STAGING, RETIRING or the copy target by the controller's state (R42). -/
def TableControl.other (t : TableControl) : Bank :=
  match t.activeBank with
  | .p => t.bankQ
  | .q => t.bankP

/-- The bank that is not ACTIVE replaced. -/
def TableControl.setOther (t : TableControl) (b : Bank) : TableControl :=
  match t.activeBank with
  | .p => { t with bankQ := b }
  | .q => { t with bankP := b }

/-- The bank of a pinned generation: RETIRING for the retiring generation, else ACTIVE (R46). -/
def TableControl.bankOf (t : TableControl) (pin : Option (BitVec 16)) : Bank :=
  if t.state = .draining ∧ pin.isSome ∧ pin = t.retiringGen then t.other else t.active

/-- The bank of the pinned generation has the role ACTIVE at this moment (R36, R37). -/
def TableControl.pinActive (t : TableControl) (pin : Option (BitVec 16)) : Bool :=
  pin == some t.activeGen

/-- The active generation after a take: 65534 is followed by 1 (R44). -/
def nextGeneration (g : BitVec 16) : BitVec 16 :=
  if g = 65534 then 1 else g + 1

/-- A pin release on generation g (R47). The last release on the retiring generation ends DRAINING, and
copy-back begins (R55). -/
def TableControl.releasePin (t : TableControl) (g : BitVec 16) : TableControl :=
  if g = t.activeGen then { t with activePins := t.activePins - 1 }
  else if t.state = .draining ∧ t.retiringGen = some g then
    if t.retiringPins ≤ 1 then { t with retiringPins := 0, state := .copying, retiringGen := none }
    else { t with retiringPins := t.retiringPins - 1 }
  else t

/-- The context requests a pin, if it holds none: the active generation, counted (R46). -/
def requestPin (p : Port) (s : State) : State :=
  if (s.context p).pin.isSome then s
  else modContext p (fun c => { c with pin := some s.table.activeGen })
    (modTable (fun t => { t with activePins := t.activePins + 1 }) s)

/-- The context releases its pin, if it holds one (R47, R65). -/
def releasePin (p : Port) (s : State) : State :=
  match (s.context p).pin with
  | none => s
  | some g => modContext p (fun c => { c with pin := none }) (modTable (·.releasePin g) s)

/-! ## Held segments and their release (R87, R94, R117) -/

/-- The port that holds a segment: held by, which is the arbiter's assignment (R87). -/
def Segment.heldBy (x : Segment) : Option Port :=
  match x.state with
  | .held h => some h.port
  | _ => none

/-- The segment is held by the port. -/
def State.holds (s : State) (p : Port) (n : SegId) : Bool := (s.segment n).heldBy == some p

/-- The held set of a port's context (R60). -/
def State.heldSet (s : State) (p : Port) : SegSet := segSetOf (s.holds p)

/-- The request set of a port's context: that of its request in the wait list (R60, R86). -/
def State.requestSet (s : State) (p : Port) : Option SegSet :=
  (s.waitList.find? fun r => r.port == p).map (·.segments)

/-- The completion the path gives a segment released at this moment (R117). A kept segment that still clocks
in the byte it discards before its repeated start (R100) is given the row of the address byte in progress
(notes/assumptions/29), and so is a segment, granted, retrying or kept, that has not yet driven its start or
repeated start (notes/assumptions/33). -/
def Path.completionOf (q : Path) (n : SegId) : Completion :=
  match q.stage with
  | .empty => .none
  | .address =>
    let dir := (q.claim.map (·.direction)).getD .write
    match q.outcomes[n] with
    | some .pending => .finishAddress dir
    | some .ack => if dir = .read then .clockByteNak else .none
    | _ => .none
  | .between => if q.targetSending = some true then .clockByteNak else .none
  | .writeByte => if q.outcomes[n] = some .pending then .finishWrite else .none
  | .readReceiving => .finishReadNak
  | .readPresented => .slotNak
  | .readEnded => .none

/-- The segment enters UNSYNCED. A quiet observation begins there unless a line is known to read low
(R16, R125; notes/assumptions/24). -/
def Segment.toUnsynced (x : Segment) (linesHigh : Bool) : Segment :=
  { x with state := .unsynced, quiet := if linesHigh then some x.inUse.quiet else none }

/-- No bits are taken in the current byte: at a condition, the device's own starts and stops included, and at
the end of an acknowledge slot (R2). -/
def Segment.noBits (x : Segment) : Segment := { x with bits := 0 }

/-- A held segment released: to CLOSING, as it was; a deferred one whose winner's stop has been seen ends
its closing at once (R94, R135, R136). A release by an abort counts on the aborts counter (R124). What a
kept segment had to finish before its repeated start is dropped for the completion given
(notes/assumptions/29). -/
def Segment.released (x : Segment) (byAbort : Bool) (c : Completion) : Segment :=
  match x.state with
  | .held h =>
    let x := if byAbort then { x with aborts := satInc x.aborts } else x
    if h.deferred then
      if h.winnerStop then x.toUnsynced true
      else { x with state := .closing ⟨true, h.tries, .none, none⟩, quiet := none }
    else { x with state := .closing ⟨false, h.tries, c, none⟩, quiet := none }
  | _ => x

/-- The port's context releases the held segments a test does not keep (R94). -/
def releaseSegments (p : Port) (byAbort : Bool) (keep : SegId → Bool) (s : State) : State :=
  modSegments (fun n x =>
    if x.heldBy = some p ∧ keep n = false then x.released byAbort ((s.path p).completionOf n) else x) s

/-- The path leaves its stage for EMPTY; what it recorded at the claim stays until the phase ends (R99). -/
def Path.toEmpty (q : Path) : Path :=
  { q with stage := .empty, outcomes := noOutcomes, byte := none, targetSending := none,
           mirroring := false, wanted := false }

/-- Every held segment released, and the path EMPTY (R118, R119). -/
def releaseAll (p : Port) (byAbort : Bool) (s : State) : State :=
  modPath p Path.toEmpty (releaseSegments p byAbort (fun _ => false) s)

/-! ## The wait list (R88 to R92) -/

/-- Every member of the set is in IDLE. -/
def State.allIdle (s : State) (set : SegSet) : Bool :=
  (segMembers set).all fun n => (s.segment n).state == .idle

/-- A request is grantable: every member IDLE, and no older request shares a member (R89). -/
def State.grantable (s : State) (older : List Request) (r : Request) : Bool :=
  s.allIdle r.segments && older.all fun o => o.segments &&& r.segments == 0

/-- A segment granted: HELD, not deferred, no tries, one more grant; it opens with a start, at which no bits
are taken (R2, R90, R100, R129; notes/assumptions/6). -/
def Segment.granted (x : Segment) (p : Port) : Segment :=
  { x.noBits with state := .held ⟨p, false, false, 0, .none, .start⟩, grants := satInc x.grants,
                  quiet := none }

/-- The path goes to ADDRESS with every member PENDING (R100). -/
def Path.toAddress (q : Path) (set : SegSet) : Path :=
  { q with stage := .address, byte := none, targetSending := none, mirroring := false, wanted := false,
           outcomes := Vector.ofFn fun n => if segMem set n then some .pending else none }

/-- A grant of the whole set to a port (R90). -/
def grant (p : Port) (set : SegSet) (s : State) : State :=
  modContext p (fun c => { c with state := .addressing })
    (modPath p (·.toAddress set)
      (modSegments (fun n x => if segMem set n then x.granted p else x) s))

/-- The examination of the requests `rest`, oldest first, behind the older ones already found not
grantable; the requests granted leave the list (R90). -/
def examineFrom (older : List Request) : List Request → State → State
  | [], s => { s with waitList := older }
  | r :: rest, s =>
    if s.grantable older r then examineFrom older rest (grant r.port r.segments s)
    else examineFrom (older ++ [r]) rest s

/-- The arbiter examines the wait list (R90). -/
def examine (s : State) : State := examineFrom [] s.waitList s

/-- The port's request, if any, leaves the wait list without a grant, and the list is examined (R92). -/
def withdraw (p : Port) (s : State) : State :=
  if s.waitList.any fun r => r.port == p then
    examine { s with waitList := s.waitList.filter fun r => r.port != p }
  else s

/-! ## Refusals (R37, R69) -/

/-- The profile that governs a context's phase: the one its policy numbers in its pinned bank (R25). -/
def State.profileOf (s : State) (p : Port) : Option Profile :=
  (s.context p).policy.map fun i => (s.table.bankOf (s.context p).pin).profiles[i]

/-- One entry's denial counter counted (R37). -/
def countDenial (i : RouteId) (s : State) : State :=
  modTable (fun t => { t with denials := t.denials.set i (satInc t.denials[i]) }) s

/-- One entry's hit counter counted (R36). -/
def countHit (i : RouteId) (s : State) : State :=
  modTable (fun t => { t with hits := t.hits.set i (satInc t.hits[i]) }) s

/-- A refusal (R69): segments released, request withdrawn, timers stopped, NAK, IGNORING, pin released,
trace owed no; then its event, where `log` says it is raised, and the denial counted when the bank of the
decision is ACTIVE. -/
def refuse (p : Port) (kind : EventKind) (seg : Option SegId) (log : Bool) (s : State) : State :=
  let counted := s.table.pinActive (s.context p).pin
  let s := withdraw p (releaseAll p false s)
  let s := releasePin p (modContext p (fun c =>
    { c with state := .ignoring, traceOwed := false, waitTimer := none, idleTimer := none }) s)
  let s := answerAddress p .nak s
  let s := if log then raise (phaseEvent kind p seg 0 s) s else s
  match (s.context p).route with
  | some i => if counted then countDenial i s else s
  | none => s

/-- The log denials flag of the profile that governs the context's phase (R31). -/
def State.logsDenials (s : State) (p : Port) : Bool :=
  (s.profileOf p).any (·.logDenials)

/-! ## Isolation at the arbiter (R93) -/

/-- One waiting request meets the isolation of segment n: withdrawn and its phase refused, or the member
dropped, or both when no member is left (R93, R74). -/
def isolateRequest (n : SegId) (r : Request) (s : State) : State :=
  let left := r.segments &&& ~~~(1#8 <<< n.val)
  if r.handling = .withdraw ∨ left = 0 then
    refuse r.port .denySegmentDown (some n) (s.logsDenials r.port)
      { s with waitList := s.waitList.filter fun o => o.port != r.port }
  else { s with waitList := s.waitList.map fun o => if o.port = r.port then { o with segments := left } else o }

/-- The arbiter acts on every waiting request that names the isolated segment, then examines the list
(R93). -/
def arbiterIsolation (n : SegId) (s : State) : State :=
  let named := s.waitList.filter fun r => segMem r.segments n
  if named.isEmpty then s else examine (named.foldl (fun s r => isolateRequest n r s) s)

/-! ## Aborts (R82, R83) -/

/-- The reasons of an abort (R82). -/
inductive AbortReason where
  | abandoned
  | downFault
  | budget
  | forced
  | isolate
  | upstreamError
  | reset
  deriving DecidableEq, Repr

/-- The states in which a cause of abort has an effect (R82). -/
def AbortReason.reaches (r : AbortReason) (c : CtxState) : Bool :=
  match r with
  | .abandoned | .upstreamError => c.forwarding
  | .downFault | .budget | .isolate => c == .addressing || c.forwarding
  | .forced => c == .waiting || c == .addressing || c.forwarding
  | .reset => c != .idle && c != .aborted

/-- What an abort does to a held upstream clock: NAK at an acknowledge slot, 0xFF for a wanted read byte
(R83, steps 6 and 7). -/
def abortHold (p : Port) (s : State) : State :=
  match (s.engine p).hold with
  | .none => s
  | .address => answerAddress p .nak s
  | .write => giveAck p .nak s
  | .read => supply p Config.fillByte s

/-- An abort of the port's context, where the reason reaches its state (R82, R83). -/
def abort (p : Port) (reason : AbortReason) (s : State) : State :=
  if reason.reaches (s.context p).state then
    let s := modContext p (fun c =>
      { c with state := .aborted, waitTimer := none, idleTimer := none }) s
    abortHold p (releaseAll p true (withdraw p (releasePin p s)))
  else s

/-! ## Entries of a segment into its states -/

/-- The segment enters IDLE: the stored configuration comes into use, and the arbiter examines its wait
list (R90, R123). -/
def enterIdle (n : SegId) (s : State) : State :=
  examine (modSegment n (fun x => { x with state := .idle, quiet := none, inUse := x.stored }) s)

/-- The segment enters ISOLATED: SEGMENT_ISOLATED is raised, and the arbiter acts on the requests that
name the segment (R93, R140, R141). -/
def enterIsolated (n : SegId) (p : Option Port) (detail : Byte) (s : State) : State :=
  arbiterIsolation n (raise (segmentEvent .segmentIsolated p n detail)
    (modSegment n (fun x => { x with state := .isolated, quiet := none }) s))

/-- The segment enters RECOVERING: the stored configuration comes into use, failed attempts becomes 0 and
the first attempt begins (R137). -/
def enterRecovering (n : SegId) (p : Option Port) (s : State) : State :=
  modSegment n (fun x => { x with state := .recovering ⟨p, false⟩, quiet := none, inUse := x.stored,
                                  failedAttempts := 0 }) s

/-- A pending isolation takes effect: ISOLATED by command, and the final response where one is owed
(R135, R141, R145). -/
def finishIsolation (n : SegId) (i : IsolationPending) (s : State) : State :=
  let s := enterIsolated n (some i.port) 1 s
  if i.owed then respondFinal i.port .ok [] s else s

/-- Where a fault sends a segment: RECOVERING under auto-recover in use, else ISOLATED with detail 3
(R128, R133). -/
def faultTransition (n : SegId) (p : Option Port) (s : State) : State :=
  if (s.segment n).inUse.autoRecover then enterRecovering n none s else enterIsolated n p 3 s

/-- Where a fault sends a closing segment: ISOLATED where isolation is pending, else by auto-recover
(R135, R136). -/
def closingFault (n : SegId) (c : ClosingRec) (s : State) : State :=
  match c.isolation with
  | some i => finishIsolation n i s
  | none => faultTransition n none s

/-- A closing ends in UNSYNCED, or in ISOLATED where isolation is pending (R135, R136). -/
def closingToUnsynced (n : SegId) (c : ClosingRec) (linesHigh : Bool) (s : State) : State :=
  match c.isolation with
  | some i => finishIsolation n i s
  | none => modSegment n (·.toUnsynced linesHigh) s

/-! ## Commands as steps -/

/-- A command's effect as a step: while the device is in reset nothing but a reset reaches it (R17). -/
def act (f : State → State) (s : State) : Host.Outcome State Fault Refusal :=
  .next (if s.resetActive then s else f s)

end Sys2Proof.Machine
end

