-- ==== Sys2Proof/Machine/Forwarding.lean ====
section
/-! DEFINITION. The forwarding path's commands: the address phase, write data, read data and the stretch
budget (chapter 6). -/

namespace Sys2Proof.Machine

/-! ## Address outcomes (R101 to R104) -/

/-- Some segment of the phase has this outcome. -/
def Path.hasOutcome (q : Path) (o : SegOutcome) : Bool :=
  segIds.any fun n => q.outcomes[n] == some o

/-- Segment n has reported ACK. -/
def Path.acked (q : Path) (n : SegId) : Bool := q.outcomes[n] == some .ack

/-- How the path combines its segments; SINGLE where no claim is recorded. -/
def Path.aggregation (q : Path) : Aggregation := (q.claim.map (·.aggregation)).getD .single

/-- The reports, none of them PENDING, combine to ACK: under ANY one ACK is enough, otherwise every segment
taking part must have given ACK (R102, R106). -/
def Path.combinesToAck (q : Path) : Bool :=
  match q.aggregation with
  | .any => q.hasOutcome .ack
  | .single | .all =>
    !(q.hasOutcome .nak || q.hasOutcome .exhausted || q.hasOutcome .fault)

/-- The aggregated address outcome ACK, at the path and at the context (R73, R103). -/
def addressAccepted (p : Port) (s : State) : State :=
  let read := (s.context p).direction = some .read
  let s := releaseSegments p false (s.path p).acked s
  let s := modPath p (fun q =>
    { q with stage := .between, outcomes := noOutcomes,
             targetSending := if read then some true else none }) s
  let limit := (s.record p).idleLimit
  answerAddress p .ack (modContext p (fun c =>
    { c with state := if read then .reading else .writing, waitTimer := none,
             idleTimer := some limit }) s)

/-- The aggregated address outcome NAK, at the path and at the context (R73, R103). -/
def addressRefused (p : Port) (s : State) : State :=
  let s := releaseAll p false s
  answerAddress p .nak (releasePin p (modContext p (fun c =>
    { c with state := .ignoring, waitTimer := none }) s))

/-- The aggregated address outcome, formed at any FAULT and otherwise once no segment is PENDING (R102). -/
def formAddressOutcome (p : Port) (s : State) : State :=
  let q := s.path p
  if q.hasOutcome .fault then abort p .downFault s
  else if q.hasOutcome .pending then s
  else if q.combinesToAck then addressAccepted p s
  else addressRefused p s

/-- The outcome the path records for a report (R101). -/
def reportOutcome : AddrReport → SegOutcome
  | .ack => .ack
  | .nak => .nak
  | .exhausted => .exhausted
  | .fault => .fault

/-- The arbitration tries a segment record holds, in HELD and CLOSING (R122). -/
def Segment.tries (x : Segment) : Nat :=
  match x.state with
  | .held h => h.tries
  | .closing c => c.tries
  | _ => 0

/-- The segment is held and not in control of the bus (R122). -/
def Segment.deferred (x : Segment) : Bool :=
  match x.state with
  | .held h => h.deferred
  | .closing c => c.deferred
  | _ => false

/-- A held segment's record changed. -/
def Segment.modHeld (f : HeldRec → HeldRec) (x : Segment) : Segment :=
  match x.state with
  | .held h => { x with state := .held (f h) }
  | _ => x

/-- ARB_EXHAUSTED for a segment's report to a path (R101). -/
def raiseExhausted (p : Port) (n : SegId) (s : State) : State :=
  raise (phaseEvent .arbExhausted p (some n) (BitVec.ofNat 8 (s.segment n).tries) s) s

/-- EXHAUSTED can be reported: the segment is deferred and its tries exceed the retry limit in use (R130). -/
def Segment.exhausted (x : Segment) : Bool := x.deferred && decide (x.inUse.retry.toNat < x.tries)

/-- The segment can make this report to the path of port p (R101): ACK and NAK from a segment in control of
its bus, EXHAUSTED from one whose tries exceed the retry limit, FAULT from one that has left HELD by its own
change. Any other report is no happening of the part (notes/assumptions/23). -/
def State.canReport (s : State) (p : Port) (n : SegId) : AddrReport → Bool
  | .ack | .nak => s.holds p n && !(s.segment n).deferred
  | .exhausted => (s.segment n).exhausted && (s.segment n).heldBy != some (otherPort p)
  | .fault => !s.holds p n

/-- The segment's part in a wanted report: ACK and NAK end its acknowledge slot (R2), and the address byte
was the last it had to finish. -/
def Segment.reported (r : AddrReport) (x : Segment) : Segment :=
  match r with
  | .ack | .nak => (x.modHeld fun h => { h with completion := .none }).noBits
  | .exhausted | .fault => x

/-- A segment's address report reaches the path of port p. It is wanted while the path is in ADDRESS and
the segment is PENDING: recorded, then the aggregated outcome (R102). A second report in the phase has no
effect (R101). Otherwise the report is ignored, except that EXHAUSTED still raises ARB_EXHAUSTED (R104). -/
def addressReport (p : Port) (n : SegId) (r : AddrReport) (s : State) : State :=
  let q := s.path p
  let raised := if r = .exhausted then raiseExhausted p n s else s
  if q.stage = .address ∧ q.outcomes[n].isSome then
    if q.outcomes[n] = some .pending then
      formAddressOutcome p
        (modPath p (fun q => { q with outcomes := q.outcomes.set n (some (reportOutcome r)) })
          (modSegment n (Segment.reported r) raised))
    else s
  else raised

/-- ADDRESS_OUTCOME (R101 to R104). -/
def execAddressOutcome (p : Port) (n : SegId) (r : AddrReport) :
    State → Host.Outcome State Fault Refusal :=
  act fun s => if s.canReport p n r then addressReport p n r s else s

/-! ## Write data (R105 to R108) -/

/-- The phase byte count plus one, saturating at 255 (R105, R109). -/
def countByte (p : Port) : State → State :=
  modContext p fun c => { c with phaseCount := c.phaseCount.map satInc }

/-- A write byte over the limit: NAK, LIMITED and LENGTH_WRITE; no segment is clocked (R108). -/
def limitWrite (p : Port) (s : State) : State :=
  let count := (s.context p).phaseCount.getD 0
  let s := modContext p (fun c => { c with state := .limited }) (giveAck p .nak s)
  raise (phaseEvent .lengthWrite p none count s) s

/-- A write byte forwarded to every held segment, the upstream clock held (R105). -/
def forwardWrite (p : Port) (b : Byte) (s : State) : State :=
  let s := modPath p (fun q =>
    { q with stage := .writeByte, byte := some b, targetSending := none,
             outcomes := Vector.ofFn fun n => if s.holds p n then some .pending else none }) s
  modEngine p (fun e => { e with hold := .write }) (countByte p s)

/-- A write-byte report in WRITING: the length check, then the byte forwarded (R105, R108). -/
def writeForwarding (p : Port) (b : Byte) (s : State) : State :=
  let limit := ((s.path p).claim.map (·.maxWrite)).getD 0
  if limit ≠ 0 ∧ (s.context p).phaseCount = some limit then limitWrite p s else forwardWrite p b s

/-- The upstream acknowledge of a write byte, once no segment is PENDING (R106, R107). Under ANY with at
least one ACK, the segments that gave NAK are released. -/
def formWriteAcknowledge (p : Port) (s : State) : State :=
  let q := s.path p
  if q.hasOutcome .pending then s
  else
    let ok := q.combinesToAck
    let s := if ok then releaseSegments p false q.acked s else s
    giveAck p (if ok then .ack else .nak)
      (modPath p (fun q => { q with stage := .between, outcomes := noOutcomes, byte := none }) s)

/-- WRITE_ACKNOWLEDGE: a target's acknowledge of the write byte, whose slot ends (R2, R106). -/
def execWriteAcknowledge (n : SegId) (a : Ack) : State → Host.Outcome State Fault Refusal :=
  act fun s =>
    match (s.segment n).heldBy with
    | none => s
    | some p =>
      if (s.path p).stage = .writeByte ∧ (s.path p).outcomes[n] = some .pending then
        formWriteAcknowledge p (modPath p (fun q =>
          { q with outcomes := q.outcomes.set n (some (match a with | .ack => .ack | .nak => .nak)) })
          (modSegment n Segment.noBits s))
      else s

/-! ## Read data (R109 to R113) -/

/-- The read segment begins to clock a byte in, the upstream clock held (R109). -/
def beginRead (p : Port) (s : State) : State :=
  modPath p (fun q => { q with stage := .readReceiving, targetSending := none, wanted := false })
    (modEngine p (fun e => { e with hold := .read }) s)

/-- A read-byte-wanted report in READING: acted on in BETWEEN with target sending yes; kept while the
mirrored slot is completed (R109, R110). -/
def readForwarding (p : Port) (s : State) : State :=
  let q := s.path p
  if q.stage = .between ∧ q.targetSending = some true then beginRead p s
  else if q.stage = .readPresented ∧ q.mirroring then
    modPath p (fun q => { q with wanted := true }) (modEngine p (fun e => { e with hold := .read }) s)
  else s

/-- The path has the read segment complete its acknowledge slot with NAK and goes to READ_ENDED (R111, R112,
R113). The slot is taken with the instruction, and its end clears the segment's bits (R2;
notes/assumptions/6). -/
def endRead (p : Port) (s : State) : State :=
  modSegments (fun _ x => if x.heldBy = some p then x.noBits else x)
    (modPath p (fun q =>
      { q with stage := .readEnded, byte := none, targetSending := none, mirroring := false,
               wanted := false }) s)

/-- A byte received: presented upstream and counted; at the max read length the read limit acts at once
(R109, R112). -/
def presentRead (p : Port) (b : Byte) (s : State) : State :=
  let limit := ((s.path p).claim.map (·.maxRead)).getD 0
  let s := supply p b (countByte p (modPath p (fun q =>
    { q with stage := .readPresented, byte := some b, targetSending := some false }) s))
  if limit ≠ 0 ∧ (s.context p).phaseCount = some limit then
    let s := modContext p (fun c => { c with state := .limited }) (endRead p s)
    raise (phaseEvent .lengthRead p none limit s) s
  else s

/-- READ_BYTE_RECEIVED: the segment takes the eighth bit (R2, R109). -/
def execReadByteReceived (n : SegId) (b : Byte) : State → Host.Outcome State Fault Refusal :=
  act fun s =>
    match (s.segment n).heldBy with
    | none => s
    | some p =>
      if (s.path p).stage = .readReceiving then
        presentRead p b (modSegment n (fun x => { x with bits := 8 }) s)
      else s

/-- A controller acknowledge in READING mirrored downstream: ACK is driven in the slot, which ends at
ACKNOWLEDGE_SLOT_DONE; NAK ends the read (R110, R111). -/
def mirrorAcknowledge (p : Port) (a : Ack) (s : State) : State :=
  if (s.path p).stage = .readPresented then
    match a with
    | .ack => modPath p (fun q => { q with mirroring := true }) s
    | .nak => endRead p s
  else s

/-- ACKNOWLEDGE_SLOT_DONE: the mirrored ACK slot is completed; the path reaches BETWEEN with target sending
yes and acts on a report it kept (R110). -/
def execAcknowledgeSlotDone (n : SegId) : State → Host.Outcome State Fault Refusal :=
  act fun s =>
    match (s.segment n).heldBy with
    | none => s
    | some p =>
      let q := s.path p
      if q.stage = .readPresented ∧ q.mirroring then
        let s := modPath p (fun q =>
          { q with stage := .between, byte := none, mirroring := false, wanted := false,
                   targetSending := some true }) (modSegment n Segment.noBits s)
        if q.wanted then beginRead p s else s
      else s

/-! ## Stretch budget (R114, R115) -/

/-- STRETCH_BUDGET: a held segment's stretch sum reaches the non-zero budget (R115). -/
def execStretchBudget (n : SegId) : State → Host.Outcome State Fault Refusal :=
  act fun s =>
    match (s.segment n).heldBy with
    | none => s
    | some p =>
      let budget := ((s.path p).claim.map (·.budget)).getD 0
      if budget ≠ 0 ∧ AbortReason.reaches .budget (s.context p).state then
        let s := modPath p (fun q => { q with sums := q.sums.set n budget.toNat }) s
        abort p .budget (raise (phaseEvent .stretchBudget p (some n) budget s) s)
      else s

end Sys2Proof.Machine
end

