-- ==== Sys2Proof/Machine/Segments.lean ====
section
/-! DEFINITION. The segment controllers: the management commands that name a segment and the happenings on
its lines, each answered by the segment's state (chapter 7). -/

namespace Sys2Proof.Machine

/-! ## Counters and measurements -/

/-- The faults counter of a segment (R124). -/
def countFault (n : SegId) : State → State :=
  modSegment n fun x => { x with faults := satInc x.faults }

/-- The aborts counter of a segment, at a departure from HELD by a change of its own (R124). -/
def countDeparture (n : SegId) : State → State :=
  modSegment n fun x => { x with aborts := satInc x.aborts }

/-- The arbitration losses counter of a segment (R124). -/
def countLoss (n : SegId) : State → State :=
  modSegment n fun x => { x with arbLosses := satInc x.arbLosses }

/-- The line measurements of a segment changed. -/
def measure (n : SegId) (f : LineMeasure → LineMeasure) : State → State :=
  modSegment n fun x => { x with lines := f x.lines }

/-! ## Management commands (R166, R167) -/

/-- SEGMENT STATUS (R166, R187). -/
def opSegmentStatus (p : Port) (segment : Byte) (s : State) : State :=
  match segArg segment with
  | none => respond p .badArgument [] s
  | some n =>
    let x := s.segment n
    respond p .ok ([segStateCode x.state, portCodeOrAbsent x.heldBy] ++ bytes32 x.grants ++
      bytes16 x.aborts ++ bytes16 x.arbLosses ++ bytes16 x.faults ++
      [x.recoveries, BitVec.ofNat 8 x.failedAttempts]) s

/-- SEGMENT CONFIGURE: the stored configuration, in any segment state (R123, R159). -/
def opSegmentConfigure (p : Port) (segment speed quiet stretch retry autoRecover : Byte) (s : State) :
    State :=
  match segArg segment, speedOfByte speed, boolArg autoRecover with
  | some n, some v, some auto =>
    if 1 ≤ quiet.toNat ∧ quiet.toNat ≤ 50 ∧ stretch ≠ 0 ∧ retry.toNat ≤ 7 then
      respond p .ok [] (modSegment n (fun x => { x with stored := ⟨v, quiet, stretch, retry, auto⟩ }) s)
    else respond p .badArgument [] s
  | _, _, _ => respond p .badArgument [] s

/-- SEGMENT ISOLATE of a held segment: its holder is aborted, and the isolation is pending until closing
ends; a closing that ends at the release isolates the segment at once (R136, R141). -/
def isolateHeld (p holder : Port) (n : SegId) (s : State) : State :=
  let s := abort holder .isolate s
  match (s.segment n).state with
  | .closing c =>
    respondPending p (.segmentIsolate n)
      (modSegment n (fun x => { x with state := .closing { c with isolation := some ⟨p, true⟩ } }) s)
  | .unsynced => respond p .ok [] (enterIsolated n (some p) 1 s)
  | _ => s

/-- SEGMENT ISOLATE (R141). -/
def opSegmentIsolate (p : Port) (segment : Byte) (s : State) : State :=
  match segArg segment with
  | none => respond p .badArgument [] s
  | some n =>
    match (s.segment n).state with
    | .idle | .unsynced | .foreign => respond p .ok [] (enterIsolated n (some p) 1 s)
    | .recovering r =>
      let s := match r.requestedBy with
        | some q => respondFinal q .aborted [segStateCode .isolated] s
        | none => s
      respond p .ok [] (enterIsolated n (some p) 1 s)
    | .held h => isolateHeld p h.port n s
    | .closing c =>
      match c.isolation with
      | some _ => respond p .busy [] s
      | none =>
        respondPending p (.segmentIsolate n)
          (modSegment n (fun x => { x with state := .closing { c with isolation := some ⟨p, true⟩ } }) s)
    | .isolated => respond p .wrongState [] s

/-- SEGMENT RESTORE (R142). -/
def opSegmentRestore (p : Port) (segment : Byte) (s : State) : State :=
  match segArg segment with
  | none => respond p .badArgument [] s
  | some n =>
    if (s.segment n).state = .isolated then
      respond p .ok [] (raise (segmentEvent .segmentRestored (some p) n 0)
        (measure n (fun m => { m with clockLow := 0, dataLow := 0, dataLowClockHigh := 0 })
          (modSegment n (·.toUnsynced true) s)))
    else respond p .wrongState [] s

/-- SEGMENT RECOVER (R143). -/
def opSegmentRecover (p : Port) (segment : Byte) (s : State) : State :=
  match segArg segment with
  | none => respond p .badArgument [] s
  | some n =>
    match (s.segment n).state with
    | .idle | .unsynced | .isolated =>
      respondPending p (.segmentRecover n) (enterRecovering n (some p) s)
    | .held _ | .closing _ | .recovering _ => respond p .busy [] s
    | .foreign => respond p .wrongState [] s

/-! ## Quiet observations (R125, R131) -/

/-- QUIET_INTERVAL_OBSERVED: an UNSYNCED segment enters IDLE (R125). Both lines read high throughout. -/
def execQuietIntervalObserved (n : SegId) : State → Host.Outcome State Fault Refusal :=
  act fun s =>
    if (s.segment n).state = .unsynced then enterIdle n (measure n (fun _ => LineMeasure.zero) s) else s

/-- DEFERRED_QUIET_OBSERVED: a deferred held segment retries its start, at which no bits are taken, and its
address byte, unless it has reported EXHAUSTED and then waits for its release (R2, R131;
notes/assumptions/6). -/
def execDeferredQuietObserved (n : SegId) : State → Host.Outcome State Fault Refusal :=
  act fun s =>
    match (s.segment n).state with
    | .held h =>
      if h.deferred ∧ (s.segment n).quiet.isSome then
        modSegment n (fun x =>
          if x.exhausted then { x with quiet := none, lines := LineMeasure.zero }
          else { x.noBits with quiet := none, lines := LineMeasure.zero,
                               state := .held { h with deferred := false, winnerStop := false,
                                                       opening := .start } }) s
      else s
    | _ => s

/-! ## Arbitration losses (R130, R132, R135) -/

/-- A loss in the start or the address byte of a held segment: counted, one more try, deferred; past the
retry limit the segment reports EXHAUSTED (R101, R130). -/
def loseAddress (n : SegId) (h : HeldRec) (s : State) : State :=
  let h' : HeldRec := { h with tries := h.tries + 1, deferred := true, winnerStop := false,
                               completion := .none }
  let s := modSegment n (fun x => { x with state := .held h', quiet := none }) (countLoss n s)
  if (s.segment n).exhausted then addressReport h.port n .exhausted s else s

/-- A loss in a write data byte: ARB_LOST_DATA, the segment to FOREIGN and out of the held set, the holder
aborted (R132). -/
def loseData (n : SegId) (h : HeldRec) (s : State) : State :=
  let s := raise
    (phaseEvent .arbLostData h.port (some n) ((s.context h.port).phaseCount.getD 0) s) s
  let s := countDeparture n (countLoss n s)
  abort h.port .downFault (modSegment n (fun x => { x with state := .foreign, quiet := none }) s)

/-- The byte a closing segment completes can be lost: it is an address or a write byte (R13, R135). -/
def Completion.arbitrated : Completion → Bool
  | .finishAddress _ | .finishWrite => true
  | _ => false

/-- ARBITRATION_LOSS (R130, R132, R135). A loss needs a byte, or a start, that the device is driving. -/
def execArbitrationLoss (n : SegId) (point : LossPoint) : State → Host.Outcome State Fault Refusal :=
  act fun s =>
    match (s.segment n).state with
    | .held h =>
      let q := s.path h.port
      if h.deferred ∨ q.outcomes[n] ≠ some .pending then s
      else match point with
        | .address => if q.stage = .address then loseAddress n h s else s
        | .data => if q.stage = .writeByte then loseData n h s else s
    | .closing c =>
      if c.deferred = false ∧ c.completion.arbitrated then
        countLoss n (modSegment n (fun x =>
          { x with state := .closing { c with deferred := true, completion := .none } }) s)
      else s
    | _ => s

/-! ## Starts and stops the device did not drive (R14) -/

/-- The detail of a segment bus error (R134, R135). -/
def conditionDetail (stop : Bool) : Byte := if stop then 2 else 1

/-- A segment bus error on a held segment in control: SEGMENT_BUS_ERROR, the segment to UNSYNCED and out of
the held set, the holder aborted. A quiet observation begins at a stop only, for a start leaves the data
line low (R16, R134). -/
def heldBusError (n : SegId) (h : HeldRec) (stop : Bool) (s : State) : State :=
  let e := phaseEvent .segmentBusError h.port (some n) (conditionDetail stop) s
  abort h.port .downFault (modSegment n (·.toUnsynced stop) (countDeparture n (raise e s)))

/-- The segment's start and address byte are pending at its holder's path (R100). -/
def State.openingPending (s : State) (n : SegId) (h : HeldRec) : Bool :=
  (s.path h.port).stage == .address && (s.path h.port).outcomes[n] == some .pending

/-- A foreign start on a held segment in control. While the segment opens its address phase, whether the
device has driven its own start is a free value: before it the foreign start is a loss at the start, and the
segment stays HELD, defers and retries (R13, R91, R125, R130); after it, and in every other phase, it is a
segment bus error (R14, R134; notes/assumptions/27). -/
def heldForeignStart (n : SegId) (h : HeldRec) (s : State) : State :=
  if s.openingPending n h then
    let t := { s with freeChoices := s.freeChoices + 1 }
    if Config.foreignStartFirst s.freeChoices then loseAddress n h t else heldBusError n h false t
  else heldBusError n h false s

/-- A segment bus error while closing under control, at every moment of the closing, also before the start of
an address byte it completes (R135; notes/assumptions/34). -/
def closingBusError (n : SegId) (c : ClosingRec) (stop : Bool) (s : State) : State :=
  closingToUnsynced n c stop (raise (segmentEvent .segmentBusError none n (conditionDetail stop)) s)

/-- A foreign start ends a recovery (R139). -/
def recoveryToForeign (n : SegId) (r : RecoveringRec) (s : State) : State :=
  let s := modSegment n (fun x => { x with state := .foreign, quiet := none, failedAttempts := 0 }) s
  match r.requestedBy with
  | some p => respondFinal p .ok [segStateCode .foreign] s
  | none => s

/-- A condition on a segment: no bits are taken (R2), and the line-low measurements begin anew (R12). -/
def conditionSeen (n : SegId) : State → State :=
  modSegment n fun x =>
    { x.noBits with lines := { x.lines with clockLow := 0, dataLow := 0, dataLowClockHigh := 0 } }

/-- A deferred segment waits for its release: EXHAUSTED is reported and the quiet interval after the
winner's stop is over (R131). -/
def Segment.waitsForRelease (x : Segment) (h : HeldRec) : Bool := h.winnerStop && x.quiet.isNone

/-- SEGMENT_START_SEEN: a start not driven by the device, by the segment's state (R14, R91, R125 to R127,
R131, R134 to R136, R139). While closing under control it is the bus error also where the device has not yet
driven its own start (notes/assumptions/34). -/
def execSegmentStartSeen (n : SegId) : State → Host.Outcome State Fault Refusal :=
  act fun s =>
    match (s.segment n).state with
    | .unsynced | .idle =>
      modSegment n (fun x => { x with state := .foreign, quiet := none }) (conditionSeen n s)
    | .foreign => conditionSeen n s
    | .held h =>
      if h.deferred then
        modSegment n (fun x =>
          if x.waitsForRelease h then x
          else { x with state := .held { h with winnerStop := false }, quiet := none })
          (conditionSeen n s)
      else heldForeignStart n h (conditionSeen n s)
    | .closing c =>
      if c.deferred then conditionSeen n s else closingBusError n c false (conditionSeen n s)
    | .recovering r => recoveryToForeign n r (conditionSeen n s)
    | .isolated => modSegment n Segment.noBits s

/-- SEGMENT_STOP_SEEN: a stop not driven by the device, by the segment's state (R14, R125 to R127, R131,
R134 to R137). -/
def execSegmentStopSeen (n : SegId) : State → Host.Outcome State Fault Refusal :=
  act fun s =>
    match (s.segment n).state with
    | .unsynced | .foreign => modSegment n (·.toUnsynced true) (conditionSeen n s)
    | .idle => conditionSeen n s
    | .held h =>
      if h.deferred then
        modSegment n (fun x =>
          if x.waitsForRelease h then x
          else { x with state := .held { h with winnerStop := true }, quiet := some x.inUse.quiet })
          (conditionSeen n s)
      else heldBusError n h true (conditionSeen n s)
    | .closing c =>
      if c.deferred then closingToUnsynced n c true (conditionSeen n s)
      else closingBusError n c true (conditionSeen n s)
    | .recovering _ => conditionSeen n s
    | .isolated => modSegment n Segment.noBits s

/-- LINE_LOW_WITHOUT_START: an IDLE segment goes to UNSYNCED, where the measurement of the line that went
low runs on (R126); no quiet observation runs while a line reads low (R16). -/
def execLineLowWithoutStart (n : SegId) (line : Line) : State → Host.Outcome State Fault Refusal :=
  act fun s =>
    if (s.segment n).state = .idle then
      measure n (fun m => match line with
        | .clock => { m with clockLow := 0 }
        | .data => { m with dataLow := 0, dataLowClockHigh := 0 })
        (modSegment n (·.toUnsynced false) s)
    else s

/-! ## Faults (R128, R131, R133, R135, R136) -/

/-- STRETCH_FAULT: a held interval reaches the stretch limit in use, on a segment in control of its bus,
held (R133) or closing (R135). -/
def execStretchFault (n : SegId) : State → Host.Outcome State Fault Refusal :=
  act fun s =>
    let limit := (s.segment n).inUse.stretch
    let reached := measure n fun m => { m with heldInterval := limit.toNat }
    match (s.segment n).state with
    | .held h =>
      if h.deferred then s
      else
        let s := reached s
        let s := raise (phaseEvent .stretchLimit h.port (some n) limit s) s
        let s := raise (phaseEvent .segmentFault h.port (some n) 1 s) s
        abort h.port .downFault (faultTransition n (some h.port) (countDeparture n (countFault n s)))
    | .closing c =>
      if c.deferred then s
      else
        let s := raise (segmentEvent .stretchLimit none n limit) (reached s)
        closingFault n c (countFault n (raise (segmentEvent .segmentFault none n 1) s))
    | _ => s

/-- The detail of a stuck-line fault (R128). -/
def lineDetail : Line → Byte
  | .clock => 2
  | .data => 3

/-- The measurement that reached the stretch limit at a stuck-line fault: for the data line, in UNSYNCED
its low time, elsewhere its low time under a high clock (R12, R127, R128). -/
def stuckMeasured (n : SegId) (line : Line) (s : State) : State :=
  let limit := (s.segment n).inUse.stretch.toNat
  measure n (fun m => match line with
    | .clock => { m with clockLow := limit }
    | .data => if (s.segment n).state = .unsynced then { m with dataLow := limit }
        else { m with dataLowClockHigh := limit }) s

/-- STUCK_LINE_FAULT: a line the controller is not driving reads low for the stretch limit in use (R128),
in UNSYNCED and FOREIGN, on a deferred held segment (R131) and in deferred closing (R136). -/
def execStuckLineFault (n : SegId) (line : Line) : State → Host.Outcome State Fault Refusal :=
  act fun s =>
    match (s.segment n).state with
    | .unsynced | .foreign =>
      faultTransition n none (countFault n
        (raise (segmentEvent .segmentFault none n (lineDetail line)) (stuckMeasured n line s)))
    | .held h =>
      if h.deferred then
        let s := stuckMeasured n line s
        let s := raise (phaseEvent .segmentFault h.port (some n) (lineDetail line) s) s
        abort h.port .downFault (faultTransition n (some h.port) (countDeparture n (countFault n s)))
      else s
    | .closing c =>
      if c.deferred then
        closingFault n c (countFault n
          (raise (segmentEvent .segmentFault none n (lineDetail line)) (stuckMeasured n line s)))
      else s
    | _ => s

/-! ## Closing and recovery (R135, R138) -/

/-- CLOSING_STOP_DRIVEN: a closing under control ends with its stop in IDLE, or in ISOLATED where isolation
is pending (R2, R135). -/
def execClosingStopDriven (n : SegId) : State → Host.Outcome State Fault Refusal :=
  act fun s =>
    match (s.segment n).state with
    | .closing c =>
      if c.deferred then s
      else
        let s := modSegment n Segment.noBits s
        match c.isolation with
        | some i => finishIsolation n i s
        | none => enterIdle n s
    | _ => s

/-- A recovery attempt succeeds, with the stop that ends it (R2, R138). -/
def recoverySucceeds (n : SegId) (r : RecoveringRec) (pulses : Nat) (s : State) : State :=
  let s := modSegment n (fun x =>
    { (x.toUnsynced true).noBits with recoveries := satInc x.recoveries, failedAttempts := 0,
                                      lines := LineMeasure.zero }) s
  let s := raise (segmentEvent .segmentRecovered r.requestedBy n (BitVec.ofNat 8 pulses)) s
  match r.requestedBy with
  | some p => respondFinal p .ok [segStateCode .unsynced] s
  | none => s

/-- A recovery attempt fails: the wait before the next attempt, or at the third failure ISOLATED (R138). -/
def recoveryFails (n : SegId) (r : RecoveringRec) (s : State) : State :=
  let failed := (s.segment n).failedAttempts + 1
  if failed < Config.recoveryAttempts then
    modSegment n (fun x =>
      { x with failedAttempts := failed, state := .recovering { r with betweenAttempts := true } }) s
  else
    let s := modSegment n (fun x => { x with failedAttempts := Config.recoveryAttempts }) s
    let s := enterIsolated n r.requestedBy 2 s
    match r.requestedBy with
    | some p => respondFinal p .ok [segStateCode .isolated] s
    | none => s

/-- The end of a recovery attempt under way (R138). -/
def endAttempt (n : SegId) (result : AttemptResult) (s : State) : State :=
  match (s.segment n).state with
  | .recovering r =>
    if r.betweenAttempts then s
    else match result with
      | .success pulses => recoverySucceeds n r pulses s
      | .failure => recoveryFails n r s
  | _ => s

/-- RECOVERY_ATTEMPT_END (R138). A success with more than 16 pulses is no happening of the part (R137). -/
def execRecoveryAttemptEnd (n : SegId) (result : AttemptResult) (s : State) :
    Host.Outcome State Fault Refusal :=
  match result with
  | .success pulses =>
    if pulses ≤ 16 then act (endAttempt n (.success pulses)) s else .refused .operandOutOfRange
  | .failure => act (endAttempt n .failure) s

/-- RECOVERY_WAIT_END: the next attempt begins (R138). -/
def execRecoveryWaitEnd (n : SegId) : State → Host.Outcome State Fault Refusal :=
  act fun s =>
    match (s.segment n).state with
    | .recovering r =>
      modSegment n (fun x => { x with state := .recovering { r with betweenAttempts := false } }) s
    | _ => s

end Sys2Proof.Machine
end

