-- ==== Sys2Proof/Machine/Table.lean ====
section
/-! DEFINITION. The table controller's commands: loads and reads, TABLE COMMIT and its take, TABLE DISCARD,
the copy-back, and the reports (chapter 3), with the credit unit's part in a take (R35). -/

namespace Sys2Proof.Machine

/-! ## Loads and reads (R49, R50, R51, R163, R164) -/

/-- A load taken into the STAGING bank in OPEN, answered OK; BUSY otherwise (R45, R49). -/
def loadStaging (p : Port) (f : Bank → Bank) (s : State) : State :=
  if s.table.state = .opened then
    respond p .ok [] (modTable (fun t =>
      { t.setOther (f t.other) with revision := satInc t.revision }) s)
  else respond p .busy [] s

/-- ROUTE LOAD (R49, R159, R163). -/
def opRouteLoad (p : Port) (index control matchAddr mask segments translate policy : Byte) (s : State) :
    State :=
  match routeArg index, profileArg policy with
  | some i, some f =>
    if sevenBit matchAddr && sevenBit mask && sevenBit translate then
      let e := routeOfBytes control matchAddr mask segments translate f
      loadStaging p (fun b => { b with entries := b.entries.set i e }) s
    else respond p .badArgument [] s
  | _, _ => respond p .badArgument [] s

/-- POLICY LOAD (R49, R159, R163). -/
def opPolicyLoad (p : Port)
    (profile flags maxWrite maxRead creditMax refillAmount refillPeriod stretchBudget : Byte) (s : State) :
    State :=
  match profileArg profile with
  | some i =>
    if refillAmount ≠ 0 ∧ refillPeriod ≠ 0 then
      let f := profileOfBytes flags maxWrite maxRead creditMax refillAmount refillPeriod stretchBudget
      loadStaging p (fun b => { b with profiles := b.profiles.set i f }) s
    else respond p .badArgument [] s
  | none => respond p .badArgument [] s

/-- The bank a role names, where it can be read: STAGING only in OPEN (R50). -/
def readableBank (t : TableControl) (staging : Bool) : Option Bank :=
  if staging then (if t.state = .opened then some t.other else none) else some t.active

/-- ROUTE READ (R50, R164, R186). -/
def opRouteRead (p : Port) (role index : Byte) (s : State) : State :=
  match stagingArg role, routeArg index with
  | some staging, some i =>
    match readableBank s.table staging with
    | some b => respond p .ok (routeBytes i b.entries[i]) s
    | none => respond p .busy [] s
  | _, _ => respond p .badArgument [] s

/-- POLICY READ, with the live credit count of the profile number (R32, R50, R164, R186). -/
def opPolicyRead (p : Port) (role profile : Byte) (s : State) : State :=
  match stagingArg role, profileArg profile with
  | some staging, some i =>
    match readableBank s.table staging with
    | some b => respond p .ok (profileBytes i b.profiles[i] ++ [(s.credits[i]).count]) s
    | none => respond p .busy [] s
  | _, _ => respond p .badArgument [] s

/-- COUNTER READ: the counters of one entry of the ACTIVE bank (R36, R37, R164, R187). -/
def opCounterRead (p : Port) (index : Byte) (s : State) : State :=
  match routeArg index with
  | some i => respond p .ok (bytes32 s.table.hits[i] ++ bytes16 s.table.denials[i]) s
  | none => respond p .badArgument [] s

/-- TABLE STATUS (R51, R187). -/
def opTableStatus (p : Port) (s : State) : State :=
  respond p .ok ([tableStateCode s.table.state] ++ bytes16 s.table.activeGen ++
    bytes16 s.table.revision ++
    [BitVec.ofNat 8 s.table.activePins, BitVec.ofNat 8 s.table.retiringPins]) s

/-! ## TABLE COMMIT (R52 to R54) -/

/-- The credit unit adjusts one profile number from its old active credit max to its new one (R35). -/
def adjustCredit (old new : Profile) (c : Credit) : Credit :=
  if old.creditMax = 0 then
    if new.creditMax = 0 then c else ⟨new.creditMax, some new.refillPeriod⟩
  else if new.creditMax = 0 then { c with timer := none }
  else if c.count > new.creditMax then { c with count := new.creditMax }
  else c

/-- The table controller at a take: roles exchanged, the next generation, the pins moved to the retiring
generation, the counters zeroed (R38, R44, R48, R53); under force the moved pins are removed (R54). The
controller is DRAINING while a pin is left, else COPYING. -/
def TableControl.take (t : TableControl) (p : Port) (force : Bool) : TableControl :=
  let retiring := if force then 0 else t.activePins
  { t with
    activeBank := (match t.activeBank with | .p => .q | .q => .p)
    activeGen := nextGeneration t.activeGen
    retiringGen := if retiring = 0 then none else some t.activeGen
    activePins := 0
    retiringPins := retiring
    hits := Vector.replicate 64 0
    denials := Vector.replicate 64 0
    state := if retiring = 0 then .copying else .draining
    copyBack := some (.commit p) }

/-- A context is aborted by a forced take that retires generation g: it is pinned to g (R54). -/
def forcedBy (g : BitVec 16) (c : Context) : Bool :=
  c.pin == some g && AbortReason.reaches .forced c.state

/-- The aborts of a forced take (R54). Where both contexts are aborted and both wait, the spec leaves their
order open and the examination between them shows it: the order is a free value. -/
def forcedAborts (g : BitVec 16) (s : State) : State :=
  let inA := forcedBy g (s.context .a)
  let inB := forcedBy g (s.context .b)
  if inA && inB && (s.context .a).state == .waiting && (s.context .b).state == .waiting then
    let s' := { s with freeChoices := s.freeChoices + 1 }
    if Config.forcedAbortAFirst s.freeChoices then abort .b .forced (abort .a .forced s')
    else abort .a .forced (abort .b .forced s')
  else
    let s := if inA then abort .a .forced s else s
    if inB then abort .b .forced s else s

/-- The number of contexts a forced take aborts (R54). -/
def forcedCount (g : BitVec 16) (s : State) : Nat :=
  (if forcedBy g (s.context .a) then 1 else 0) + (if forcedBy g (s.context .b) then 1 else 0)

/-- The take of a commit (R53, R54), answered OK with the new active generation. -/
def takeCommit (p : Port) (force : Bool) (s : State) : State :=
  let old := s.table
  let s := modTable (·.take p force) s
  let credits := Vector.ofFn fun i =>
    adjustCredit old.active.profiles[i] s.table.active.profiles[i] s.credits[i]
  let s := { s with credits := credits }
  let s := if force then
      forcedAborts old.activeGen
        (raise (portEvent .commitForced p (BitVec.ofNat 8 (forcedCount old.activeGen s))) s)
    else s
  respond p .ok (bytes16 s.table.activeGen) s

/-- TABLE COMMIT: state, revision, validation, take, in this order (R52, R159, R165). -/
def opTableCommit (p : Port) (expected : BitVec 16) (force : Byte) (s : State) : State :=
  match boolArg force with
  | none => respond p .badArgument [] s
  | some force =>
    if s.table.state ≠ .opened then respond p .busy [] s
    else if expected ≠ s.table.revision then respond p .stale [] s
    else match bankFailure s.table.other with
      | some (i, reason) => respond p .invalid [BitVec.ofNat 8 i.val, reason] s
      | none => takeCommit p force s

/-! ## TABLE DISCARD and copy-back (R55 to R59) -/

/-- TABLE DISCARD (R58). -/
def opTableDiscard (p : Port) (s : State) : State :=
  if s.table.state = .opened then
    respondPending p .tableDiscard (modTable (fun t =>
      { t with state := .copying, copyBack := some (.discard p true) }) s)
  else respond p .busy [] s

/-- The end of a copy-back: the target holds the content of ACTIVE and becomes STAGING, the revision is 0,
the controller goes to OPEN (R56); COMMIT_DONE for a commit, the owed final response for a discard (R59). -/
def endCopyBack (s : State) : State :=
  let cause := s.table.copyBack
  let s := modTable (fun t =>
    { t.setOther t.active with state := .opened, revision := 0, copyBack := none }) s
  match cause with
  | some (.commit p) => raise (portEvent .commitDone p (s.table.activeGen.setWidth 8)) s
  | some (.discard p true) => respondFinal p .ok [] s
  | _ => s

/-- COPY_BACK_END (R56). -/
def execCopyBackEnd : State → Host.Outcome State Fault Refusal :=
  act fun s => if s.table.state = .copying then endCopyBack s else s

end Sys2Proof.Machine
end

