-- ==== Sys2Proof/Machine/Management.lean ====
section
/-! DEFINITION. The management dispatcher: receiving a management write, checking and executing it, the
port, rights and log commands and CONTEXT RESET (chapter 8), and one meaning for each management row. -/

namespace Sys2Proof.Machine

/-! ## Receiving a management write (R148) -/

/-- One data byte received: counted, and kept and given ACK, or given NAK (R148). -/
def receiveByte (portPending : Bool) (b : Byte) (r : Reception) : Reception × Ack :=
  let count := min (r.count + 1) 255
  if r.count = 0 then
    if portPending then (⟨r.bytes, count, true⟩, .nak) else (⟨r.bytes ++ [b], count, r.refused⟩, .ack)
  else if r.refused then (⟨r.bytes, count, true⟩, .nak)
  else if count ≤ 18 then (⟨r.bytes ++ [b], count, false⟩, .ack)
  else (⟨r.bytes, count, false⟩, .nak)

/-- A whole write received, byte by byte (R148). -/
def receiveAll (portPending : Bool) (bytes : List Byte) : Reception :=
  bytes.foldl (fun r b => (receiveByte portPending b r).1) Reception.empty

/-! ## Port and rights commands (R158, R160 to R162) -/

/-- IDENTIFY (R160, R187). -/
def opIdentify (p : Port) (s : State) : State :=
  respond p .ok (bytes16 Config.vendorCode ++ bytes16 Config.partCode ++
    [Config.revision, portCode p, rightsCode (s.record p).rights]) s

/-- What PORT STATUS reports of a context. The issuing port's own is in MGMT_WRITE, with no pin, no route
and no segment, at the moment its command executes (R161), whichever way the command was sent
(notes/assumptions/7). -/
def reportedContext (p q : Port) (s : State) : Context × SegSet :=
  if q = p then ({ s.context q with state := .mgmtWrite, pin := none, route := none }, 0)
  else (s.context q, s.heldSet q)

/-- PORT STATUS (R161, R187). -/
def opPortStatus (p : Port) (port : Byte) (s : State) : State :=
  match portArg port with
  | none => respond p .badArgument [] s
  | some q =>
    let c := (reportedContext p q s).1
    respond p .ok ([ctxStateCode c.state, (reportedContext p q s).2] ++ bytes16 (c.pin.getD 0xFFFF) ++
      [(c.route.map fun i => BitVec.ofNat 8 i.val).getD 0xFF, rightsCode (s.record q).rights,
        (s.record q).storedAddr.setWidth 8]) s

/-- PORT CONFIGURE: four settings of the named port at once, and that port's alert output evaluated
(R159, R162, R181). -/
def opPortConfigure (p : Port) (port addr waitLimit idleLimit : Byte) (mask : BitVec 32) (s : State) :
    State :=
  match portArg port with
  | none => respond p .badArgument [] s
  | some q =>
    if managementAddrArg addr ∧ waitLimit ≠ 0 ∧ idleLimit ≠ 0 then
      respond p .ok [] (evalAlert q (modRecord q (fun r =>
        { r with storedAddr := addr.setWidth 7, waitLimit := waitLimit, idleLimit := idleLimit,
                 alertMask := mask &&& Config.alertMaskBits }) s))
    else respond p .badArgument [] s

/-- RIGHTS GRANT acts on the other port (R158). -/
def opRightsGrant (p : Port) (s : State) : State :=
  respond p .ok [] (modRecord (otherPort p) (fun r => { r with rights := .full }) s)

/-- RIGHTS REVOKE acts on the other port (R158). -/
def opRightsRevoke (p : Port) (s : State) : State :=
  respond p .ok [] (modRecord (otherPort p) (fun r => { r with rights := .readOnly }) s)

/-! ## Log commands (R168, R169) -/

/-- LOG PEEK: the record count, the lost count and the head record (R168, R188). -/
def opLogPeek (p : Port) (s : State) : State :=
  match s.log.records with
  | [] => respond p .empty (0 :: bytes16 s.log.lost) s
  | r :: _ =>
    respond p .ok (BitVec.ofNat 8 s.log.records.length :: bytes16 s.log.lost ++ recordBytes r) s

/-- LOG POP: the response of LOG PEEK, then the head removed, the lost count cleared and, where a record
was removed, both alert outputs evaluated (R169, R179). -/
def opLogPop (p : Port) (s : State) : State :=
  let removed := !s.log.records.isEmpty
  let s := opLogPeek p s
  let s := { s with log := { s.log with records := s.log.records.tail, lost := 0 } }
  if removed then evalAlerts s else s

/-! ## CONTEXT RESET (R85, R97, R145, R170) -/

/-- The abort with reason RESET: a held upstream clock is released with NAK or 0xFF like any other (R83,
R85), but the 0xFF is only the byte being sent, and the byte shifter stays as it was, which R4 says of CONTEXT
RESET (notes/assumptions/32). -/
def abortForReset (p : Port) (s : State) : State :=
  modEngine p (fun e => { e with shifter := (s.engine p).shifter }) (abort p .reset s)

/-- One context set to IDLE, aborted first with reason RESET unless it is the issuing context executing its
own write (R85). A write under way at the other port is discarded with it; where both ports sent CONTEXT
RESET the two columns of R171 disagree about the later one, and the model discards it unless its own row has
already executed it (notes/assumptions/30). A read byte the engine is sending is left to its controller
acknowledge, and an ACK it is giving to the end of its slot, though the engine is passive from here on (R4, R6,
R10; notes/assumptions/31). -/
def resetContext (p : Port) (issuing : Bool) (s : State) : State :=
  let s := if issuing ∧ (s.context p).state = .mgmtWrite then s else abortForReset p s
  modRecord p (fun r => { r with reception := none, readCopy := none })
    (modContext p (fun _ => Context.idle) s)

/-- A pending isolation to which CONTEXT RESET leaves no response owed (R145). -/
def IsolationPending.unowed (i : IsolationPending) : IsolationPending := { i with owed := false }

/-- A segment at CONTEXT RESET, after the releases of the aborts (R145). -/
def resetSegment (x : Segment) : Segment :=
  let x := match x.state with
    | .unsynced | .idle | .foreign | .recovering _ => x.toUnsynced true
    | .closing c =>
      { x with state := .closing { c with isolation := c.isolation.map IsolationPending.unowed } }
    | .held _ | .isolated => x
  { x with grants := 0, aborts := 0, arbLosses := 0, faults := 0, recoveries := 0, failedAttempts := 0 }

/-- The event log emptied; numbering and timestamp go on (R172, R179). -/
def emptyLog (s : State) : State :=
  evalAlerts { s with log := { s.log with records := [], lost := 0 } }

/-- Every live credit count at its active credit max; the timers run on (R32). -/
def resetCredits (s : State) : State :=
  let credits : Vector Credit 16 := Vector.ofFn fun i =>
    ⟨(s.table.active.profiles[i]).creditMax, (s.credits[i]).timer⟩
  { s with credits := credits }

/-- The copy-back record owes no response after CONTEXT RESET (R42, R59). -/
def CopyBack.unowed : CopyBack → CopyBack
  | .commit p => .commit p
  | .discard p _ => .discard p false

/-- CONTEXT RESET, in the order of R170. The withdrawals are taken before any examination (R97). -/
def opContextReset (p : Port) (s : State) : State :=
  let s := { s with waitList := [] }
  let s := resetContext p true (resetContext (otherPort p) false s)
  let s := resetCredits (emptyLog (modSegments (fun _ x => resetSegment x) s))
  let s := modTable (fun t =>
    { t with hits := Vector.replicate 64 0, denials := Vector.replicate 64 0,
             copyBack := t.copyBack.map CopyBack.unowed }) s
  respond p .ok [] (respondFinal (otherPort p) .none [] s)

/-! ## Checking and executing a management write (R150) -/

/-- An executed command with its argument bytes (R151). -/
def runCommand (p : Port) (o : MgmtOp) (args : List Byte) (s : State) : State :=
  match o, args with
  | .identify, [] => opIdentify p s
  | .portStatus, [q] => opPortStatus p q s
  | .portConfigure, [q, addr, wait, idle, m3, m2, m1, m0] =>
    opPortConfigure p q addr wait idle (word32 m3 m2 m1 m0) s
  | .rightsGrant, [] => opRightsGrant p s
  | .rightsRevoke, [] => opRightsRevoke p s
  | .routeLoad, [i, c, m, k, g, t, f] => opRouteLoad p i c m k g t f s
  | .routeRead, [role, i] => opRouteRead p role i s
  | .policyLoad, [i, f, w, r, c, a, d, b] => opPolicyLoad p i f w r c a d b s
  | .policyRead, [role, i] => opPolicyRead p role i s
  | .tableCommit, [hi, lo, force] => opTableCommit p (word16 hi lo) force s
  | .tableDiscard, [] => opTableDiscard p s
  | .tableStatus, [] => opTableStatus p s
  | .counterRead, [i] => opCounterRead p i s
  | .segmentStatus, [n] => opSegmentStatus p n s
  | .segmentConfigure, [n, v, q, st, r, auto] => opSegmentConfigure p n v q st r auto s
  | .segmentIsolate, [n] => opSegmentIsolate p n s
  | .segmentRestore, [n] => opSegmentRestore p n s
  | .segmentRecover, [n] => opSegmentRecover p n s
  | .logPeek, [] => opLogPeek p s
  | .logPop, [] => opLogPop p s
  | .contextReset, [] => opContextReset p s
  | _, _ => s

/-- Steps 5 and 6 of R150: the rights, then the execution. -/
def executeCommand (p : Port) (o : MgmtOp) (args : List Byte) (s : State) : State :=
  if needsFull o p args ∧ (s.record p).rights = .readOnly then respond p .deniedRights [] s
  else runCommand p o args s

/-- Steps 2 to 6 of R150 on a write of 2 to 18 bytes. -/
def examineBytes (p : Port) (bytes : List Byte) (s : State) : State :=
  let body := bytes.dropLast
  let code := bytes.headD 0
  if bytes.getLast? ≠ some (checkByte body) then
    respond p .checkError [] (raise (portEvent .mgmtCheckError p code) s)
  else match opOfCode code with
    | none => respond p .unknownCommand [] s
    | some o =>
      if body.tail.length ≠ argCount o then respond p .lengthError [] s
      else executeCommand p o body.tail s

/-- A reception handed over: discarded where it is refused or empty, else examined (R150). -/
def examineReception (p : Port) (r : Reception) (s : State) : State :=
  if r.refused ∨ r.count = 0 then s
  else if r.count = 1 ∨ 19 ≤ r.count then respond p .lengthError [] s
  else examineBytes p r.bytes s

/-- The port's reception is absent. -/
def dropReception (p : Port) : State → State :=
  modRecord p fun r => { r with reception := none }

/-- The context hands the reception over, which is discarded afterwards (R64, R80, R150). -/
def handOver (p : Port) (s : State) : State :=
  match (s.record p).reception with
  | none => s
  | some r => dropReception p (examineReception p r s)

/-- MANAGEMENT_WRITE: the whole management write with these data bytes (R148 to R150). -/
def execManagementWrite (p : Port) (bytes : List Byte) : State → Host.Outcome State Fault Refusal :=
  act fun s =>
    dropReception p (examineReception p (receiveAll (s.record p).command.isSome bytes) s)

/-! ## One meaning for each management row

A row is the hand-over, on its port, of a correct management write carrying that command with those
argument bytes (notes/assumptions/7). On a PENDING port such a write is refused at its first byte and
discarded (R148, R150). -/

/-- The hand-over of a management write that carries a command (R150, steps 5 and 6). -/
def command (p : Port) (o : MgmtOp) (args : List Byte) : State → Host.Outcome State Fault Refusal :=
  act fun s =>
    if (s.record p).command.isSome then s else dropReception p (executeCommand p o args s)

/-- IDENTIFY (R160). -/
def execIdentify (p : Port) := command p .identify []

/-- PORT_STATUS (R161). -/
def execPortStatus (p : Port) (port : Byte) := command p .portStatus [port]

/-- PORT_CONFIGURE (R162). -/
def execPortConfigure (p : Port) (port addr waitLimit idleLimit : Byte) (mask : BitVec 32) :=
  command p .portConfigure ([port, addr, waitLimit, idleLimit] ++ bytes32 mask)

/-- RIGHTS_GRANT (R158). -/
def execRightsGrant (p : Port) := command p .rightsGrant []

/-- RIGHTS_REVOKE (R158). -/
def execRightsRevoke (p : Port) := command p .rightsRevoke []

/-- ROUTE_LOAD (R49). -/
def execRouteLoad (p : Port) (index control matchAddr mask segments translate policy : Byte) :=
  command p .routeLoad [index, control, matchAddr, mask, segments, translate, policy]

/-- ROUTE_READ (R50). -/
def execRouteRead (p : Port) (role index : Byte) := command p .routeRead [role, index]

/-- POLICY_LOAD (R49). -/
def execPolicyLoad (p : Port)
    (profile flags maxWrite maxRead creditMax refillAmount refillPeriod stretchBudget : Byte) :=
  command p .policyLoad
    [profile, flags, maxWrite, maxRead, creditMax, refillAmount, refillPeriod, stretchBudget]

/-- POLICY_READ (R50). -/
def execPolicyRead (p : Port) (role profile : Byte) := command p .policyRead [role, profile]

/-- TABLE_COMMIT (R52). -/
def execTableCommit (p : Port) (expected : BitVec 16) (force : Byte) :=
  command p .tableCommit (bytes16 expected ++ [force])

/-- TABLE_DISCARD (R58). -/
def execTableDiscard (p : Port) := command p .tableDiscard []

/-- TABLE_STATUS (R51). -/
def execTableStatus (p : Port) := command p .tableStatus []

/-- COUNTER_READ (R164). -/
def execCounterRead (p : Port) (index : Byte) := command p .counterRead [index]

/-- SEGMENT_STATUS (R166). -/
def execSegmentStatus (p : Port) (segment : Byte) := command p .segmentStatus [segment]

/-- SEGMENT_CONFIGURE (R123). -/
def execSegmentConfigure (p : Port) (segment speed quiet stretch retry autoRecover : Byte) :=
  command p .segmentConfigure [segment, speed, quiet, stretch, retry, autoRecover]

/-- SEGMENT_ISOLATE (R141). -/
def execSegmentIsolate (p : Port) (segment : Byte) := command p .segmentIsolate [segment]

/-- SEGMENT_RESTORE (R142). -/
def execSegmentRestore (p : Port) (segment : Byte) := command p .segmentRestore [segment]

/-- SEGMENT_RECOVER (R143). -/
def execSegmentRecover (p : Port) (segment : Byte) := command p .segmentRecover [segment]

/-- LOG_PEEK (R168). -/
def execLogPeek (p : Port) := command p .logPeek []

/-- LOG_POP (R169). -/
def execLogPop (p : Port) := command p .logPop []

/-- CONTEXT_RESET (R170). -/
def execContextReset (p : Port) := command p .contextReset []

end Sys2Proof.Machine
end

