-- ==== Sys2Proof/Machine/Reset.lean ====
section
/-! DEFINITION. Power-on, RST# and the end of reset (R17). -/

namespace Sys2Proof.Machine

/-- The device in reset: every block at its reset values, every line and both alert outputs released, the
RIGHTS strap latched (R17, R156). The queue and the count of free choices are the model's own and stay. -/
def inReset (rightsHigh : Bool) (s : State) : State :=
  { State.atReset rightsHigh with
    pending := s.pending, freeChoices := s.freeChoices, resetActive := true }

/-- POWER_ON (R17). -/
def execPowerOn (rightsHigh : Bool) (s : State) : Host.Outcome State Fault Refusal :=
  .next (inReset rightsHigh s)

/-- RST_ASSERT, with the same effect as power-on (R17). -/
def execRstAssert (rightsHigh : Bool) (s : State) : Host.Outcome State Fault Refusal :=
  .next (inReset rightsHigh s)

/-- RESET_END: the line measurements and quiet observations start anew, every segment begins UNSYNCED, and
the timestamp counter starts at 0 (R17, R173). -/
def execResetEnd (s : State) : Host.Outcome State Fault Refusal :=
  .next (if s.resetActive then
    modSegments (fun _ x => { x.toUnsynced true with lines := LineMeasure.zero })
      { s with resetActive := false, log := { s.log with timestamp := 0 } }
  else s)

end Sys2Proof.Machine
end

