-- ==== Sys2Proof/Machine/Timers.lean ====
section
/-! DEFINITION. The timers: the address wait limit, the idle limit, the credit refill and the timestamp
counter. -/

namespace Sys2Proof.Machine

/-- ADDRESS_WAIT_LIMIT: the timer, which runs in WAITING and ADDRESSING, runs out; the phase is refused with
DENY_WAIT (R69, R75). -/
def execAddressWaitLimit (p : Port) : State → Host.Outcome State Fault Refusal :=
  act fun s =>
    let c := s.context p
    if c.waitTimer.isSome ∧ (c.state = .waiting ∨ c.state = .addressing) then
      refuse p .denyWait none (s.logsDenials p) s
    else s

/-- IDLE_LIMIT: the idle timer, which pauses while the engine holds the upstream clock, runs out (R78). -/
def execIdleLimit (p : Port) : State → Host.Outcome State Fault Refusal :=
  act fun s =>
    let c := s.context p
    if c.idleTimer.isSome ∧ c.state.forwarding ∧ (s.engine p).hold = .none then
      abort p .abandoned (raise (phaseEvent .upstreamIdle p none (c.phaseCount.getD 0) s) s)
    else s

/-- The count after a refill: the active refill amount, capped at the active credit max (R33). -/
def refilled (f : Profile) (count : Byte) : Byte :=
  if count.toNat + f.refillAmount.toNat ≤ f.creditMax.toNat then count + f.refillAmount
  else if count.toNat ≤ f.creditMax.toNat then f.creditMax
  else count

/-- REFILL_TIMER: a running refill timer runs out, and restarts for the active refill period (R33). -/
def execRefillTimer (i : ProfileId) : State → Host.Outcome State Fault Refusal :=
  act fun s =>
    let c := s.credits[i]
    let f := s.table.active.profiles[i]
    if c.timer.isSome then
      { s with credits := s.credits.set i ⟨refilled f c.count, some f.refillPeriod⟩ }
    else s

/-- TIMESTAMP_TICK: one millisecond (R173). -/
def execTimestampTick : State → Host.Outcome State Fault Refusal :=
  act fun s => { s with log := { s.log with timestamp := s.log.timestamp + 1 } }

end Sys2Proof.Machine
end

