-- ==== Sys2Proof/Machine/Upstream.lean ====
section
/-! DEFINITION. The reports of an upstream port engine to its transaction context: start, repeated start,
stop, the address decision, bytes, acknowledges and bus errors (chapters 1 and 4). -/

namespace Sys2Proof.Machine

/-- A report of a port engine reaches its context: only with the tracker BUSY (R4, R5), and none while the
engine holds the upstream clock, because neither a condition nor a bit can form then (R1, R2). Of the reports
made at one falling edge, the one that holds the clock comes last: BYTE_COMPLETE is taken before
READ_BYTE_WANTED, and after it is dropped (R7; notes/assumptions/28). -/
def reported (p : Port) (f : State → State) (s : State) : State :=
  if (s.engine p).tracker = .busy ∧ (s.engine p).hold = .none then f s else s

/-! ## Phase boundaries (R63, R64, R80) -/

/-- TRANSACTION, where it is owed (R81). -/
def raiseTransaction (p : Port) (s : State) : State :=
  if (s.context p).traceOwed then
    modContext p (fun c => { c with traceOwed := false })
      (raise (phaseEvent .transaction p none ((s.context p).phaseCount.getD 0) s) s)
  else s

/-- A condition that meets READ_PRESENTED: the byte is not delivered, the segment completes its slot with
NAK, before the context acts on the condition (R9, R113). -/
def endPresented (p : Port) (s : State) : State :=
  if (s.path p).stage = .readPresented then endRead p s else s

/-- The engine at a condition: no bits taken, no line driven, the address phase and its passive mode over
(R2, R8, R9, R10). -/
def Engine.atCondition (e : Engine) : Engine :=
  { e with bits := 0, ack := none, sending := none, readOver := false, addressNaked := false }

/-- The path's record of the phase that ends (R99). -/
def Path.phaseEnd (q : Path) : Path := { q with claim := none }

/-- A start with the tracker IDLE: BUSY, and the stored management address comes into effect (R4, R147).
The context records nothing (R63). -/
def openTransaction (p : Port) (s : State) : State :=
  modRecord p (fun r => { r with effAddr := r.storedAddr })
    (modEngine p (fun e => { e.atCondition with tracker := .busy, addressNext := true }) s)

/-- What the context does at a repeated start (R64). -/
def closePhase (p : Port) (s : State) : State :=
  match (s.context p).state with
  | .mgmtWrite => handOver p s
  | .ignoring | .aborted => raiseTransaction p s
  | .writing | .reading | .limited =>
    let limit := (s.record p).idleLimit
    raiseTransaction p (modContext p (fun c => { c with idleTimer := some limit }) s)
  | .idle | .mgmtRead | .waiting | .addressing => s

/-- A start with the tracker BUSY: a repeated start (R4, R64). -/
def repeatTransaction (p : Port) : State → State :=
  reported p fun s =>
    let s := closePhase p (endPresented p s)
    modPath p Path.phaseEnd (modEngine p (fun e => { e.atCondition with addressNext := true }) s)

/-- A start on an upstream port is a start or a repeated start by the tracker (R1, R4). -/
def upstreamStart (p : Port) (s : State) : State :=
  if (s.engine p).tracker = .idle then openTransaction p s else repeatTransaction p s

/-- START (R63). -/
def execStart (p : Port) : State → Host.Outcome State Fault Refusal := act (upstreamStart p)

/-- REPEATED_START (R64). -/
def execRepeatedStart (p : Port) : State → Host.Outcome State Fault Refusal := act (upstreamStart p)

/-- The held segments and the pin released, the path EMPTY: the end of forwarding at a stop, at a
management address and where lookup finds no match (R67, R68, R80). -/
def leaveForwarding (p : Port) (s : State) : State := releasePin p (releaseAll p false s)

/-- What the context does at a stop, before IDLE (R80). -/
def closeTransaction (p : Port) (s : State) : State :=
  match (s.context p).state with
  | .mgmtWrite => handOver p s
  | .writing | .reading | .limited => raiseTransaction p (leaveForwarding p s)
  | .ignoring | .aborted => raiseTransaction p s
  | .idle | .mgmtRead | .waiting | .addressing => s

/-- STOP (R80). A stop with the tracker IDLE is not reported (R4). -/
def execStop (p : Port) : State → Host.Outcome State Fault Refusal :=
  act (reported p fun s =>
    let s := closeTransaction p (endPresented p s)
    let s := modContext p (fun _ => Context.idle) s
    let s := modRecord p (fun r => { r with reception := none, readCopy := none }) s
    modPath p Path.phaseEnd
      (modEngine p (fun e => { e.atCondition with tracker := .idle, addressNext := false }) s))

/-! ## The address decision (R66 to R72) -/

/-- The engine takes the eighth bit of an address byte and holds the clock (R5, R6). -/
def takeAddress (p : Port) (addr : Addr) (dir : Direction) (s : State) : State :=
  let low : BitVec 1 := match dir with | .write => 0 | .read => 1
  let byte : Byte := addr ++ low
  let s := modEngine p (fun e =>
    { e with bits := 8, shifter := byte, addressNext := false, hold := .address,
             addressNaked := false }) s
  modContext p (fun c =>
    { c with direction := some dir, upstream := some addr, phaseCount := none, idleTimer := none }) s

/-- Step 1 settles: the address is the management address in effect (R67, R148, R153). -/
def decideManagement (p : Port) (dir : Direction) (s : State) : State :=
  let s := modContext p (fun c => { c with route := none, policy := none }) (leaveForwarding p s)
  let s := match dir with
    | .write =>
      modRecord p (fun r => { r with reception := some Reception.empty, readCopy := none })
        (modContext p (fun c => { c with state := .mgmtWrite }) s)
    | .read =>
      modRecord p (fun r => { r with reception := none, readCopy := some (responseBytes r.response) })
        (modContext p (fun c => { c with state := .mgmtRead }) s)
  answerAddress p .ack s

/-- The management records of the phase before a routed decision are absent in it (R146, R153). -/
def leaveManagement (p : Port) : State → State :=
  modRecord p fun r => { r with reception := none, readCopy := none }

/-- Step 2 settles: no entry matches (R68). -/
def decideNoMatch (p : Port) (s : State) : State :=
  answerAddress p .nak (modContext p (fun c => { c with state := .ignoring, route := none, policy := none })
    (leaveForwarding p s))

/-- The direction check refuses (R26). -/
def directionRefused (f : Profile) (dir : Direction) (addr : Addr) : Bool :=
  match dir with
  | .write => !f.writeAllowed
  | .read => !f.readAllowed || addr == 0

/-- The members of a set that are not ISOLATED at this moment (R70). -/
def State.available (s : State) (set : SegSet) : SegSet :=
  segSetOf fun n => segMem set n && (s.segment n).state != .isolated

/-- Segment availability: the claim set, or the lowest-numbered ISOLATED member where it refuses (R70). -/
def claimSet (s : State) (set : SegSet) (agg : Aggregation) : Except SegId SegSet :=
  match (segMembers set).find? fun n => (s.segment n).state == .isolated with
  | none => .ok set
  | some n => if agg = .any ∧ s.available set ≠ 0 then .ok (s.available set) else .error n

/-- How the segments of a route combine: SINGLE for one segment, else the fan-out mode (R99). -/
def routeAggregation (set : SegSet) (f : Profile) : Aggregation :=
  if segSingle set then .single else match f.fanOut with | .any => .any | .all => .all

/-- The credit unit's answer to a request (R34): whether it admits, and the count after. -/
def requestCredit (active : Profile) (c : Credit) : Bool × Credit :=
  if active.creditMax = 0 then (true, c)
  else if c.count = 0 then (false, c)
  else (true, { c with count := c.count - 1 })

/-- A request reaches the arbiter: granted at once, or placed at the end of the wait list (R88). A member
already ISOLATED is treated as one that enters ISOLATED just after the arrival (R88, R93). -/
def request (p : Port) (set : SegSet) (handling : IsolationHandling) (s : State) : State :=
  let r : Request := ⟨p, set, handling⟩
  if s.grantable s.waitList r then grant p set s
  else
    let s := { s with waitList := s.waitList ++ [r] }
    let s := modContext p (fun c => { c with state := .waiting }) s
    ((segMembers set).filter fun n => (s.segment n).state == .isolated).foldl
      (fun s n => arbiterIsolation n s) s

/-- The claim with kept segments: the held members outside the claim set are released, each kept segment
begins a new address phase by a repeated start, at which no bits are taken (R2, R72, R100, R129;
notes/assumptions/6). -/
def keepSegments (p : Port) (set : SegSet) (s : State) : State :=
  let q := s.path p
  let s := releaseSegments p false (segMem set) s
  let s := modSegments (fun n x =>
    if segMem set n then
      (x.modHeld fun h =>
        { h with tries := 0, deferred := false, winnerStop := false, completion := q.completionOf n,
                 opening := .repeatedStart }).noBits
    else x) s
  modContext p (fun c => { c with state := .addressing }) (modPath p (·.toAddress set) s)

/-- Step 8, the claim (R72, R100): the path records the phase and starts its sums at 0, the address wait
timer starts, and the segments are kept or requested. -/
def placeClaim (p : Port) (rec : Claim) (set : SegSet) (s : State) : State :=
  let limit := (s.record p).waitLimit
  let pinned := (s.context p).state.forwarding
  let s := modContext p (fun c => { c with waitTimer := some limit }) s
  let s := modPath p (fun q => { q with claim := some rec, sums := Vector.replicate 8 0 }) s
  if pinned ∧ set &&& ~~~(s.heldSet p) = 0 then keepSegments p set s
  else request p set (if rec.aggregation = .any then .drop else .withdraw) (releaseAll p false s)

/-- Steps 4 to 8 for a selected FORWARD entry with its profile (R29, R26, R70, R34, R71, R72). -/
def decideForward (p : Port) (addr : Addr) (dir : Direction) (chained : Bool) (e : RouteEntry)
    (segments : SegSet) (translate : Addr) (policy : ProfileId) (f : Profile) (s : State) : State :=
  if !chained then refuse p .denyChain none f.logDenials s
  else if directionRefused f dir addr then refuse p .denyDirection none f.logDenials s
  else
    let agg := routeAggregation segments f
    match claimSet s segments agg with
    | .error n => refuse p .denySegmentDown (some n) f.logDenials s
    | .ok set =>
      let answer := requestCredit s.table.active.profiles[policy] s.credits[policy]
      if !answer.1 then refuse p .denyCredits none f.logDenials s
      else
        let s := { s with credits := s.credits.set policy answer.2 }
        let s := modContext p (fun c =>
          { c with phaseCount := some 0, traceOwed := f.logTransactions }) s
        placeClaim p ⟨translated e.mask translate addr, dir, agg, f.maxWrite, f.maxRead,
          f.stretchBudget⟩ set s

/-- The chaining check passes (R29): it applies to a repeated start from WRITING, READING or LIMITED, and
reads the flag of the current route's profile in the pinned bank. -/
def chainingPasses (bank : Bank) (old : Context) (i : RouteId) : Bool :=
  !old.state.forwarding || old.route == some i ||
    old.policy.all fun k => (bank.profiles[k]).chaining

/-- Steps 2 to 8 (R66, R68): the pin, the lookup, the hit, the entry's action. -/
def decideRoute (p : Port) (addr : Addr) (dir : Direction) (s : State) : State :=
  let old := s.context p
  let s := requestPin p (leaveManagement p s)
  let pin := (s.context p).pin
  let bank := s.table.bankOf pin
  match lookup bank p addr with
  | none => decideNoMatch p s
  | some i =>
    let s := if s.table.pinActive pin then countHit i s else s
    match (bank.entries[i]).action with
    | .deny =>
      refuse p .denyRule none true (modContext p (fun c => { c with route := some i, policy := none }) s)
    | .forward segments translate policy =>
      decideForward p addr dir (chainingPasses bank old i) bank.entries[i] segments translate policy
        bank.profiles[policy]
        (modContext p (fun c => { c with route := some i, policy := some policy }) s)

/-- ADDRESS: the address decision (R66). -/
def execAddress (p : Port) (addr : Addr) (dir : Direction) : State → Host.Outcome State Fault Refusal :=
  act (reported p fun s =>
    if (s.engine p).addressNext then
      let s := takeAddress p addr dir s
      if addr = (s.record p).effAddr then decideManagement p dir s else decideRoute p addr dir s
    else s)

/-! ## Data bytes (R77, R84, R148, R153) -/

/-- A write byte in MGMT_WRITE (R148). -/
def writeManagement (p : Port) (b : Byte) (s : State) : State :=
  match (s.record p).reception with
  | none => giveAck p .nak s
  | some r =>
    let answer := receiveByte (s.record p).command.isSome b r
    giveAck p answer.2 (modRecord p (fun m => { m with reception := some answer.1 }) s)

/-- WRITE_BYTE, by the context's state (R10, R77, R84, R148). In passive mode the data line stays released,
which is NAK (R63). -/
def execWriteByte (p : Port) (b : Byte) : State → Host.Outcome State Fault Refusal :=
  act (reported p fun s =>
    if (s.engine p).addressNext then s
    else
      let t := modEngine p (fun e => { e with bits := 8, shifter := b }) s
      if s.passive p then giveAck p .nak t else match (s.context p).state with
      | .mgmtWrite => writeManagement p b t
      | .writing => if (s.path p).stage = .between then writeForwarding p b t else s
      | .limited | .aborted | .idle | .ignoring => giveAck p .nak t
      | .mgmtRead | .waiting | .addressing | .reading => s)

/-- A read byte in MGMT_READ: the next byte of the copied response, 0xFF after its check byte (R153). -/
def readManagement (p : Port) (s : State) : State :=
  match (s.record p).readCopy with
  | some (b :: rest) => supply p b (modRecord p (fun m => { m with readCopy := some rest }) s)
  | _ => supply p Config.fillByte s

/-- READ_BYTE_WANTED, by the context's state (R77, R84, R109, R153). After a controller NAK, and in passive
mode, no byte is wanted (R7, R10). -/
def execReadByteWanted (p : Port) : State → Host.Outcome State Fault Refusal :=
  act (reported p fun s =>
    if (s.engine p).addressNext ∨ (s.engine p).readOver ∨ s.passive p then s
    else match (s.context p).state with
      | .mgmtRead => readManagement p s
      | .reading => readForwarding p s
      | .limited | .aborted => supply p Config.fillByte s
      | .idle | .ignoring | .mgmtWrite | .waiting | .addressing | .writing => s)

/-- CONTROLLER_ACKNOWLEDGE: the acknowledge of a byte the engine transmitted; in READING it is mirrored
downstream, elsewhere it has no effect there (R7, R77, R84, R110, R111). -/
def execControllerAcknowledge (p : Port) (a : Ack) : State → Host.Outcome State Fault Refusal :=
  act (reported p fun s =>
    if (s.engine p).sending.isNone then s
    else
      let t := modEngine p (fun e =>
        { e with bits := 0, sending := none, readOver := e.readOver || a == .nak }) s
      if (s.context p).state = .reading then mirrorAcknowledge p a t else t)

/-- BYTE_COMPLETE: the end of an acknowledge slot; the idle timer restarts in WRITING, READING and LIMITED
(R5, R6, R77, R78). -/
def execByteComplete (p : Port) : State → Host.Outcome State Fault Refusal :=
  act (reported p fun s =>
    let t := modEngine p (fun e => { e with bits := 0, ack := none }) s
    if (s.context p).state.forwarding then
      modContext p (fun c => { c with idleTimer := some (s.record p).idleLimit }) t
    else t)

/-- BUS_ERROR, by the context's state (R8, R79, R84). -/
def execBusError (p : Port) : State → Host.Outcome State Fault Refusal :=
  act (reported p fun s =>
    let t := modEngine p Engine.atCondition s
    let c := s.context p
    if c.state.forwarding then
      abort p .upstreamError (raise (phaseEvent .upstreamBusError p none 1 t) t)
    else if c.state = .mgmtWrite ∧ (s.record p).reception.isSome then
      modContext p (fun c => { c with state := .ignoring })
        (dropReception p (raise (phaseEvent .upstreamBusError p none 2 t) t))
    else raise (phaseEvent .upstreamBusError p none 0 t) t)

end Sys2Proof.Machine
end

