-- ==== Sys2Proof/Machine/Dispatch.lean ====
section
/-! DEFINITION. The meaning of each command. -/

namespace Sys2Proof.Machine

def exec (i : Instr) (s : State) : Host.Outcome State Fault Refusal :=
  match i with
  | .powerOn rightsHigh => Sys2Proof.Machine.execPowerOn rightsHigh s
  | .rstAssert rightsHigh => Sys2Proof.Machine.execRstAssert rightsHigh s
  | .resetEnd => Sys2Proof.Machine.execResetEnd s
  | .start p => Sys2Proof.Machine.execStart p s
  | .repeatedStart p => Sys2Proof.Machine.execRepeatedStart p s
  | .stop p => Sys2Proof.Machine.execStop p s
  | .address p addr dir => Sys2Proof.Machine.execAddress p addr dir s
  | .writeByte p byte => Sys2Proof.Machine.execWriteByte p byte s
  | .readByteWanted p => Sys2Proof.Machine.execReadByteWanted p s
  | .controllerAcknowledge p a => Sys2Proof.Machine.execControllerAcknowledge p a s
  | .byteComplete p => Sys2Proof.Machine.execByteComplete p s
  | .busError p => Sys2Proof.Machine.execBusError p s
  | .managementWrite p bytes => Sys2Proof.Machine.execManagementWrite p bytes s
  | .identify p => Sys2Proof.Machine.execIdentify p s
  | .portStatus p port => Sys2Proof.Machine.execPortStatus p port s
  | .portConfigure p port addr waitLimit idleLimit mask => Sys2Proof.Machine.execPortConfigure p port addr waitLimit idleLimit mask s
  | .rightsGrant p => Sys2Proof.Machine.execRightsGrant p s
  | .rightsRevoke p => Sys2Proof.Machine.execRightsRevoke p s
  | .routeLoad p index control matchAddr mask segments translate policy => Sys2Proof.Machine.execRouteLoad p index control matchAddr mask segments translate policy s
  | .routeRead p role index => Sys2Proof.Machine.execRouteRead p role index s
  | .policyLoad p profile flags maxWrite maxRead creditMax refillAmount refillPeriod stretchBudget => Sys2Proof.Machine.execPolicyLoad p profile flags maxWrite maxRead creditMax refillAmount refillPeriod stretchBudget s
  | .policyRead p role profile => Sys2Proof.Machine.execPolicyRead p role profile s
  | .tableCommit p expected force => Sys2Proof.Machine.execTableCommit p expected force s
  | .tableDiscard p => Sys2Proof.Machine.execTableDiscard p s
  | .tableStatus p => Sys2Proof.Machine.execTableStatus p s
  | .counterRead p index => Sys2Proof.Machine.execCounterRead p index s
  | .segmentStatus p segment => Sys2Proof.Machine.execSegmentStatus p segment s
  | .segmentConfigure p segment speed quiet stretch retry autoRecover => Sys2Proof.Machine.execSegmentConfigure p segment speed quiet stretch retry autoRecover s
  | .segmentIsolate p segment => Sys2Proof.Machine.execSegmentIsolate p segment s
  | .segmentRestore p segment => Sys2Proof.Machine.execSegmentRestore p segment s
  | .segmentRecover p segment => Sys2Proof.Machine.execSegmentRecover p segment s
  | .logPeek p => Sys2Proof.Machine.execLogPeek p s
  | .logPop p => Sys2Proof.Machine.execLogPop p s
  | .contextReset p => Sys2Proof.Machine.execContextReset p s
  | .addressWaitLimit p => Sys2Proof.Machine.execAddressWaitLimit p s
  | .idleLimit p => Sys2Proof.Machine.execIdleLimit p s
  | .refillTimer profile => Sys2Proof.Machine.execRefillTimer profile s
  | .timestampTick => Sys2Proof.Machine.execTimestampTick s
  | .quietIntervalObserved n => Sys2Proof.Machine.execQuietIntervalObserved n s
  | .deferredQuietObserved n => Sys2Proof.Machine.execDeferredQuietObserved n s
  | .addressOutcome p n report => Sys2Proof.Machine.execAddressOutcome p n report s
  | .writeAcknowledge n a => Sys2Proof.Machine.execWriteAcknowledge n a s
  | .readByteReceived n byte => Sys2Proof.Machine.execReadByteReceived n byte s
  | .acknowledgeSlotDone n => Sys2Proof.Machine.execAcknowledgeSlotDone n s
  | .arbitrationLoss n point => Sys2Proof.Machine.execArbitrationLoss n point s
  | .segmentStartSeen n => Sys2Proof.Machine.execSegmentStartSeen n s
  | .segmentStopSeen n => Sys2Proof.Machine.execSegmentStopSeen n s
  | .lineLowWithoutStart n line => Sys2Proof.Machine.execLineLowWithoutStart n line s
  | .stretchFault n => Sys2Proof.Machine.execStretchFault n s
  | .stuckLineFault n line => Sys2Proof.Machine.execStuckLineFault n line s
  | .stretchBudget n => Sys2Proof.Machine.execStretchBudget n s
  | .closingStopDriven n => Sys2Proof.Machine.execClosingStopDriven n s
  | .recoveryAttemptEnd n result => Sys2Proof.Machine.execRecoveryAttemptEnd n result s
  | .recoveryWaitEnd n => Sys2Proof.Machine.execRecoveryWaitEnd n s
  | .copyBackEnd => Sys2Proof.Machine.execCopyBackEnd s

end Sys2Proof.Machine
end

