-- ==== Sys2Proof/Machine/Drive.lean ====
section
/-! DEFINITION. What each segment controller does on its two lines: an output of the device, computed from
the segment record and from the stage of its holder's path (R11). -/

namespace Sys2Proof.Machine

/-- What a segment controller does on its lines (R11). -/
inductive Drive where
  /-- Neither line is driven. -/
  | released
  /-- The clock is held low, the data line is released. -/
  | clockLow
  /-- A byte to be finished first, if any, then a start or a repeated start, then the address byte. -/
  | opening (first : Completion) (o : Opening) (address : Addr) (dir : Direction)
  /-- A write byte and its acknowledge slot, with the data line released in the slot. -/
  | byteOut (b : Byte)
  /-- A byte clocked in from the target, the data line released. -/
  | byteIn
  /-- ACK in the acknowledge slot of a read byte. -/
  | slotAck
  /-- A completion, then a stop (R135). -/
  | closing (first : Completion)
  /-- A recovery attempt: the clock released, pulses, then a stop (R137). -/
  | attempt
  deriving DecidableEq, Repr

/-- What a held segment in control of its bus does, by the stage of the path (R100, R105, R109 to R111). With
nothing to send or to take it holds its clock low: between bytes, and before the acknowledge slot of a read
byte while it waits for the upstream acknowledge (R11). -/
def Path.drive (q : Path) (n : SegId) (h : HeldRec) : Drive :=
  match q.stage with
  | .address =>
    match q.outcomes[n], q.claim with
    | some .pending, some c => .opening h.completion h.opening c.address c.direction
    | _, _ => .clockLow
  | .writeByte =>
    match q.outcomes[n], q.byte with
    | some .pending, some b => .byteOut b
    | _, _ => .clockLow
  | .readReceiving => .byteIn
  | .readPresented => if q.mirroring then .slotAck else .clockLow
  | .empty | .between | .readEnded => .clockLow

/-- What a segment controller does on its lines, by its state (R11, R125 to R127, R131, R135 to R138). -/
def State.drive (s : State) (n : SegId) : Drive :=
  match (s.segment n).state with
  | .held h => if h.deferred then .released else (s.path h.port).drive n h
  | .closing c => if c.deferred then .released else .closing c.completion
  | .recovering r => if r.betweenAttempts then .released else .attempt
  | .unsynced | .idle | .foreign | .isolated => .released

end Sys2Proof.Machine
end

