-- ==== Sys2Proof/Safety.lean ====
section
/-! DEFINITION. The terms the statements use: one part of the state replaced, the effects a rule lists for
an answer, an abort or a refusal written out as one state, and the invariants of the device. -/

namespace Sys2Proof.Machine

/-- A property of both ports. -/
abbrev OnPorts (f : Port → Prop) : Prop := f .a ∧ f .b

/-! ## One part of the state replaced, everything else as it was -/

/-- The engine of a port replaced. -/
def withEngine (p : Port) (e : Engine) (s : State) : State := { s with engines := s.engines.set p e }

/-- The context of a port replaced. -/
def withContext (p : Port) (c : Context) (s : State) : State := { s with contexts := s.contexts.set p c }

/-- The path of a port replaced. -/
def withPath (p : Port) (q : Path) (s : State) : State := { s with paths := s.paths.set p q }

/-- The management record of a port replaced. -/
def withRecord (p : Port) (r : MgmtRecord) (s : State) : State := { s with mgmt := s.mgmt.set p r }

/-- The record of a segment replaced. -/
def withSegment (n : SegId) (x : Segment) (s : State) : State :=
  { s with segments := s.segments.set n x }

/-! ## Management answers (R150 to R152) -/

/-- The device is out of reset and the port is not PENDING: it takes a management write. -/
abbrev Accepts (s : State) (p : Port) : Prop := s.resetActive = false ∧ (s.record p).command = none

/-- The port's write is answered: the response stands in its buffer and the reception is discarded. -/
def answered (p : Port) (status : Status) (data : List Byte) (s : State) : State :=
  withRecord p { s.record p with response := ⟨status, data⟩, reception := none } s

/-- The port is left PENDING (R154). -/
def leftPending (p : Port) (c : PendingCommand) (s : State) : State :=
  withRecord p { s.record p with response := ⟨.pending, []⟩, command := some c, reception := none } s

/-- The final response of a PENDING port (R154). -/
def completed (p : Port) (status : Status) (data : List Byte) (s : State) : State :=
  withRecord p { s.record p with response := ⟨status, data⟩, command := none } s

/-- The frame of a command: its code and arguments with their check byte (8.2, R149). -/
def frameOf (bytes : List Byte) : List Byte := bytes ++ [checkByte bytes]

/-- The credit state of one profile number after a take, from its old and its new active profile (R35). -/
def adjustedCredit (old new : Profile) (c : Credit) : Credit :=
  if old.creditMax = 0 ∧ new.creditMax ≠ 0 then ⟨new.creditMax, some new.refillPeriod⟩
  else if old.creditMax ≠ 0 ∧ new.creditMax = 0 then ⟨c.count, none⟩
  else if old.creditMax ≠ 0 ∧ new.creditMax < c.count then ⟨new.creditMax, c.timer⟩
  else c

/-- The port may issue commands that need full rights (R157). -/
abbrev FullRights (s : State) (p : Port) : Prop := (s.record p).rights = .full

/-! ## Releases, aborts and refusals (R69, R83, R94) -/

/-- The segments after a release of every segment the port holds: each goes the way its own record says,
every other segment is as it was (R94, R117, R124). -/
def releasedSegments (p : Port) (byAbort : Bool) (s : State) : Vector Segment 8 :=
  Vector.ofFn fun n =>
    if (s.segment n).heldBy = some p then
      (s.segment n).released byAbort ((s.path p).completionOf n)
    else s.segment n

/-- The table controller after the port's pin, if any, is released (R47). -/
def unpinnedTable (p : Port) (s : State) : TableControl :=
  match (s.context p).pin with
  | some g => s.table.releasePin g
  | none => s.table

/-- The engine whose hold of the upstream clock, if any, an abort ends: NAK in an acknowledge slot, 0xFF for
a wanted read byte (R83, steps 6 and 7). After a NAKed address the engine is passive (R10). -/
def unheldEngine (e : Engine) : Engine :=
  match e.hold with
  | .none => e
  | .address => { e with hold := .none, ack := some .nak, addressNaked := true }
  | .write => { e with hold := .none, ack := some .nak }
  | .read => { e with hold := .none, sending := some 0xFF, shifter := 0xFF }

/-- The effects of an abort on a context with no request in the wait list (R83, R119). -/
def abortedState (p : Port) (s : State) : State :=
  { s with
    contexts := s.contexts.set p
      { s.context p with state := .aborted, waitTimer := none, idleTimer := none, pin := none }
    table := unpinnedTable p s
    paths := s.paths.set p (s.path p).toEmpty
    segments := releasedSegments p true s
    engines := s.engines.set p (unheldEngine (s.engine p)) }

/-- The effects of a refusal on a context with no request in the wait list, but for its event and its
denial count (R69, steps 1 to 5). -/
def refusedState (p : Port) (s : State) : State :=
  { s with
    contexts := s.contexts.set p
      { s.context p with state := .ignoring, traceOwed := false, waitTimer := none, idleTimer := none,
                         pin := none }
    table := unpinnedTable p s
    paths := s.paths.set p (s.path p).toEmpty
    segments := releasedSegments p false s
    engines := s.engines.set p { s.engine p with hold := .none, ack := some .nak, addressNaked := true } }

/-- The denial of an entry counted (R37). -/
def deniedState (i : RouteId) (s : State) : State :=
  { s with table := { s.table with denials := s.table.denials.set i (satInc s.table.denials[i]) } }

/-- The bank of the generation a context is pinned to: the RETIRING one while it drains, else the ACTIVE one
(R46). -/
def pinnedBank (p : Port) (s : State) : Bank :=
  let t := s.table
  if t.state = .draining ∧ (s.context p).pin.isSome ∧ (s.context p).pin = t.retiringGen then
    match t.activeBank with | .p => t.bankQ | .q => t.bankP
  else
    match t.activeBank with | .p => t.bankP | .q => t.bankQ

/-- A phase refused: the effects of a refusal, the event under the log denials flag of the profile that the
context's policy numbers in its pinned bank, with the address and the route of the phase, and the denial
counted while the entry's bank is ACTIVE (R31, R37, R69). -/
def deniedPhase (p : Port) (kind : EventKind) (seg : Option SegId) (s : State) : State :=
  let c := s.context p
  let u := refusedState p s
  let u := if c.policy.any fun i => ((pinnedBank p s).profiles[i]).logDenials then
    raise ⟨kind, some p, seg, c.upstream, c.route, 0⟩ u else u
  match c.route with
  | some i => if c.pin = some s.table.activeGen then deniedState i u else u
  | none => u

/-- One waiting request meets the isolation of segment n. Under WITHDRAW, or when no other member is left, it
leaves the list and its phase is refused with DENY_SEGMENT_DOWN carrying the segment; under DROP with other
members left it keeps its place without the segment (R74, R93). -/
def requestIsolated (n : SegId) (r : Request) (s : State) : State :=
  if r.handling = .withdraw ∨ ∀ m : SegId, segMem r.segments m = true → m = n then
    deniedPhase r.port .denySegmentDown (some n)
      { s with waitList := s.waitList.filter fun o => o.port != r.port }
  else
    { s with waitList := s.waitList.map fun o =>
        if o.port = r.port then { o with segments := r.segments &&& ~~~(1#8 <<< n.val) } else o }

/-- The arbiter meets the isolation of segment n: every waiting request that names it, oldest first, then
the examination of the list; where none names it, nothing happens (R93). -/
def isolationMet (n : SegId) (s : State) : State :=
  match s.waitList.filter fun r => segMem r.segments n with
  | [] => s
  | named => examine (named.foldl (fun u r => requestIsolated n r u) s)

/-- A pending isolation is taken: the segment, otherwise as x says, is ISOLATED by command, the arbiter meets
it, and the final response is placed where one is owed (R135, R136, R141). -/
def isolatedByCommand (n : SegId) (i : IsolationPending) (x : Segment) (s : State) : State :=
  let u := isolationMet n (raise ⟨.segmentIsolated, some i.port, some n, none, none, 1⟩
    (withSegment n { x with state := .isolated, quiet := none } s))
  if i.owed then completed i.port .ok [] u else u

/-- Where a fault sends the segment, otherwise as x says: RECOVERING under the stored configuration, or
ISOLATED with detail 3 without auto-recover in use (R128, R133, R137). -/
def afterFault (n : SegId) (holder : Option Port) (x : Segment) (s : State) : State :=
  if x.inUse.autoRecover then
    withSegment n { x with state := .recovering ⟨none, false⟩, quiet := none, inUse := x.stored,
                           failedAttempts := 0 } s
  else
    isolationMet n (raise ⟨.segmentIsolated, holder, some n, none, none, 3⟩
      (withSegment n { x with state := .isolated, quiet := none } s))

/-- The path in READ_ENDED: the segment has completed its acknowledge slot with NAK, and takes no bit (R2,
R111 to R113). -/
def readEnded (p : Port) (s : State) : State :=
  { s with
    paths := s.paths.set p { s.path p with stage := .readEnded, byte := none, targetSending := none,
                                           mirroring := false, wanted := false }
    segments := Vector.ofFn fun n =>
      if (s.segment n).heldBy = some p then { s.segment n with bits := 0 } else s.segment n }

/-- The port has no request in the arbiter's wait list. -/
abbrev NoRequest (s : State) (p : Port) : Prop := ∀ r ∈ s.waitList, r.port ≠ p

/-- A report of the port's engine can be made: the device is out of reset, the tracker is BUSY and the
upstream clock is not held (R4, R5, R6). -/
abbrev Reports (s : State) (p : Port) : Prop :=
  s.resetActive = false ∧ (s.engine p).tracker = .busy ∧ (s.engine p).hold = .none

/-! ## The address decision (R66 to R72) -/

/-- A context whose address byte has been taken in, the engine holding the clock (R6, R60, R66). -/
def takenAddress (p : Port) (addr : Addr) (dir : Direction) (s : State) : State :=
  let low : BitVec 1 := match dir with | .write => 0 | .read => 1
  let byte : Byte := addr ++ low
  let c := s.context p
  withContext p { c with direction := some dir, upstream := some addr, phaseCount := none,
                         idleTimer := none }
    (withEngine p { s.engine p with bits := 8, shifter := byte, addressNext := false,
                                    hold := .address, addressNaked := false } s)

/-- An address report the context can decide: it follows a start or a repeated start. -/
abbrev AddressReported (s : State) (p : Port) : Prop :=
  Reports s p ∧ (s.engine p).addressNext = true

/-- The address is searched, in the pinned bank, or in the active one by a context without a pin, which
then pins the active generation (R46, R65). The port's management records are those of a routed phase. -/
def searching (p : Port) (s : State) : State :=
  let r := s.record p
  let s := withRecord p { r with reception := none, readCopy := none } s
  let c := s.context p
  match c.pin with
  | some _ => s
  | none =>
    withContext p { c with pin := some s.table.activeGen }
      { s with table := { s.table with activePins := s.table.activePins + 1 } }

/-- The bank a context searches after `searching` (R46). -/
abbrev searchedBank (p : Port) (s : State) : Bank := pinnedBank p s

/-- The hit of a selected entry, counted while the searched bank is ACTIVE (R36). -/
def hitCounted (p : Port) (i : RouteId) (s : State) : State :=
  if (s.context p).pin = some s.table.activeGen then
    { s with table := { s.table with hits := s.table.hits.set i (satInc s.table.hits[i]) } }
  else s

/-- The state in which the checks of steps 3 to 7 are made: pinned, the hit counted, the route and the
policy recorded (R68). -/
def selected (p : Port) (addr : Addr) (dir : Direction) (i : RouteId) (policy : Option ProfileId)
    (s : State) : State :=
  let s := hitCounted p i (searching p (takenAddress p addr dir s))
  withContext p { s.context p with route := some i, policy := policy } s

/-- The first check among steps 4 to 7 that refuses, in their order, with the segment its event carries
(R66). `old` is the context as the address report found it. -/
def refusal (old : Context) (dir : Direction) (addr : Addr) (i : RouteId) (bank : Bank)
    (segments : SegSet) (policy : ProfileId) (s : State) : Option (EventKind × Option SegId) :=
  let f := bank.profiles[policy]
  let active := s.table.active.profiles[policy]
  if old.state.forwarding ∧ old.route ≠ some i ∧ (∃ k ∈ old.policy, (bank.profiles[k]).chaining = false)
  then some (.denyChain, none)
  else if (dir = .write ∧ f.writeAllowed = false) ∨
      (dir = .read ∧ (f.readAllowed = false ∨ addr = 0)) then
    some (.denyDirection, none)
  else
    match (segMembers segments).find? fun n => (s.segment n).state == .isolated with
    | some n =>
      if segSingle segments ∨ f.fanOut = .all ∨ s.available segments = 0 then
        some (.denySegmentDown, some n)
      else if active.creditMax ≠ 0 ∧ (s.credits[policy]).count = 0 then some (.denyCredits, none)
      else none
    | none =>
      if active.creditMax ≠ 0 ∧ (s.credits[policy]).count = 0 then some (.denyCredits, none) else none

/-- The claim of an admitted phase: the downstream address and what the path copies from the profile
(R22, R99, R100). -/
def claimOf (addr : Addr) (dir : Direction) (e : RouteEntry) (segments : SegSet) (translate : Addr)
    (f : Profile) : Claim where
  address := translated e.mask translate addr
  direction := dir
  aggregation := if segSingle segments then .single else match f.fanOut with | .any => .any | .all => .all
  maxWrite := f.maxWrite
  maxRead := f.maxRead
  budget := f.stretchBudget

/-- A phase admitted: one credit consumed from a limited profile, the count 0, the trace owed by the flag,
the wait timer started, the claim recorded with its sums at 0 (R34, R71, R72, R100). -/
def admitted (p : Port) (policy : ProfileId) (f : Profile) (claim : Claim) (s : State) : State :=
  let credit := s.credits[policy]
  let limited := (s.table.active.profiles[policy]).creditMax ≠ 0
  let s := if limited then { s with credits := s.credits.set policy { credit with count := credit.count - 1 } }
    else s
  let limit := (s.record p).waitLimit
  withPath p { s.path p with claim := some claim, sums := Vector.replicate 8 0 }
    (withContext p { s.context p with phaseCount := some 0, traceOwed := f.logTransactions,
                                      waitTimer := some limit } s)

/-- A grant of a set: its members HELD and counted, to open with a start, at which no bits are taken, the
context ADDRESSING, the path in ADDRESS with every member PENDING (R2, R90, R100, R129). -/
def granted (p : Port) (set : SegSet) (s : State) : State :=
  { s with
    contexts := s.contexts.set p { s.context p with state := .addressing }
    paths := s.paths.set p
      { s.path p with stage := .address, byte := none, targetSending := none, mirroring := false,
                      wanted := false,
                      outcomes := Vector.ofFn fun n => if segMem set n then some .pending else none }
    segments := Vector.ofFn fun n =>
      if segMem set n then
        { s.segment n with state := .held ⟨p, false, false, 0, .none, .start⟩,
                           grants := satInc (s.segment n).grants, quiet := none, bits := 0 }
      else s.segment n }

/-! ## The event log (R176, R181) -/

/-- The records carry consecutive sequence numbers, the newest one the number before `next` (R176). -/
def consecutive (next : BitVec 16) : List LogRecord → Bool
  | [] => true
  | [r] => r.sequence + 1 == next
  | r :: r' :: rest => r.sequence + 1 == r'.sequence && consecutive next (r' :: rest)

/-- At most 32 records with consecutive numbers, and each alert output driven exactly while the log holds a
record its port's mask selects (R176, R181). -/
def LogOk (s : State) : Prop :=
  s.log.records.length ≤ 32 ∧ consecutive s.log.nextSequence s.log.records = true ∧
    OnPorts fun p => s.log.alerts.get p =
      s.log.records.any fun r => (s.record p).alertMask.getLsbD (eventCode r.event.kind)

/-! ## The management records (R146, R156) -/

/-- One port at least has full rights, and every port setting is in its range (R146, R156). -/
def ManagementOk (s : State) : Prop :=
  ((s.record .a).rights = .full ∨ (s.record .b).rights = .full) ∧
    OnPorts fun p =>
      (1 ≤ (s.record p).storedAddr.toNat ∧ (s.record p).storedAddr.toNat ≤ 119) ∧
      (1 ≤ (s.record p).effAddr.toNat ∧ (s.record p).effAddr.toNat ≤ 119) ∧
      (s.record p).waitLimit ≠ 0 ∧ (s.record p).idleLimit ≠ 0

/-! ## The banks, the generation and the credits (R32, R41, R44, R45) -/

/-- The generation is never 65535; an untouched staging bank equals the active one; a limited profile's
count is within its credit max and its timer runs, an unlimited one's is stopped (R32, R44, R45). -/
def TableOk (s : State) : Prop :=
  s.table.activeGen ≠ 65535 ∧
    (s.table.state = .opened → s.table.revision = 0 → s.table.other = s.table.active) ∧
    ∀ i : ProfileId,
      if (s.table.active.profiles[i]).creditMax = 0 then (s.credits[i]).timer = none
      else (s.credits[i]).count.toNat ≤ (s.table.active.profiles[i]).creditMax.toNat ∧
        (s.credits[i]).timer.isSome = true

/-- The banks in service pass validation, and every downstream address a path records lies in 1 to 119, or
is 0 with direction write (R41). -/
def AddressesOk (s : State) : Prop :=
  bankFailure s.table.active = none ∧
    (s.table.state = .draining → bankFailure s.table.other = none) ∧
    OnPorts fun p => ∀ c ∈ (s.path p).claim,
      c.address.toNat ≤ 119 ∧ (c.address = 0 → c.direction = .write)

/-! ## Contexts, paths, arbiter, segments and pins agree (R62, R65, R86, R87, R99) -/

/-- The states that hold segments (4.1). -/
def CtxState.holding (c : CtxState) : Bool := c == .addressing || c.forwarding

/-- The states that hold a pin (R65). -/
def CtxState.pinned (c : CtxState) : Bool := c == .waiting || c.holding

/-- The stage of the path and the state of the context go together (R99, R100, R103, R107 to R112). -/
def stageAgrees (c : CtxState) (g : Stage) : Bool :=
  match g with
  | .empty => !c.holding
  | .address => c == .addressing
  | .between => c.forwarding
  | .writeByte => c == .writing
  | .readReceiving | .readPresented => c == .reading
  | .readEnded => c == .reading || c == .limited

/-- A pin is on the active generation or, while draining, on the retiring one (R46, R48). -/
abbrev pinAgrees (t : TableControl) (g : BitVec 16) : Prop :=
  g = t.activeGen ∨ (t.state = .draining ∧ t.retiringGen = some g)

/-- The number of ports whose context is pinned to a generation. -/
def pinCount (s : State) (g : BitVec 16) : Nat :=
  (if (s.context .a).pin = some g then 1 else 0) + (if (s.context .b).pin = some g then 1 else 0)

/-- The entry forwards to a set that has segment n. -/
def routeHas (e : RouteEntry) (n : SegId) : Prop :=
  match e.action with
  | .deny => False
  | .forward segments _ _ => segMem segments n = true

/-- What one context's record, its path, its engine, the arbiter and the table controller say together. -/
structure PortAgrees (s : State) (p : Port) : Prop where
  /-- WAITING, ADDRESSING, WRITING, READING and LIMITED hold a pin, the others none (R65). -/
  pin : (s.context p).pin.isSome = (s.context p).state.pinned
  /-- Segments are held only in ADDRESSING, WRITING, READING and LIMITED (R62, R87, R96). -/
  held : ∀ n, s.holds p n = true → (s.context p).state.holding = true
  /-- A context has a request in the wait list exactly in WAITING, and then one (R86). -/
  request : (s.waitList.filter fun r => r.port == p).length =
    if (s.context p).state = .waiting then 1 else 0
  /-- The path's stage goes with the context's state (R99). -/
  stage : stageAgrees (s.context p).state (s.path p).stage = true
  /-- The upstream clock is held in WAITING and ADDRESSING (R64, R73, R74). -/
  clock : (s.context p).state = .waiting ∨ (s.context p).state = .addressing →
    (s.engine p).hold = .address
  /-- After a NAKed address the context takes no further part in the address phase (R10, R69, R73, R83). -/
  naked : (s.engine p).addressNaked = true → (s.context p).state.passive = true ∨
    (s.context p).state = .aborted
  /-- A pin is on a generation the table controller knows (R46, R48). -/
  generation : ∀ g ∈ (s.context p).pin, pinAgrees s.table g
  /-- A segment held or requested belongs to the route entry, in the pinned bank, that admitted the phase
  (R62, R72). -/
  route : ∀ n, (s.holds p n = true ∨ ∃ r ∈ s.waitList, r.port = p ∧ segMem r.segments n = true) →
    ∃ i ∈ (s.context p).route, routeHas (s.table.bankOf (s.context p).pin).entries[i] n

/-- The pin counts are those of the contexts, and the controller drains exactly while a retiring pin is left
(R47, R48, R55). -/
structure PinsAgree (s : State) : Prop where
  active : s.table.activePins = pinCount s s.table.activeGen
  retiring : match s.table.retiringGen with
    | some g => g ≠ s.table.activeGen ∧ s.table.state = .draining ∧
        s.table.retiringPins = pinCount s g ∧ 0 < s.table.retiringPins
    | none => s.table.state ≠ .draining ∧ s.table.retiringPins = 0

/-- The records of the blocks agree. -/
structure Agreement (s : State) : Prop where
  ports : OnPorts (PortAgrees s)
  pins : PinsAgree s

/-- No phase passes more bytes to its segments than its non-zero limit: a write phase up to the limit, a
read phase below it until LIMITED (R27, R108, R112). -/
def LengthsOk (s : State) : Prop :=
  OnPorts fun p => ∀ c ∈ (s.path p).claim,
    match (s.context p).state with
    | .waiting | .addressing =>
      (s.context p).direction = some c.direction ∧ (s.context p).phaseCount = some 0
    | .writing => c.direction = .write ∧ ∃ k ∈ (s.context p).phaseCount, c.maxWrite ≠ 0 → k ≤ c.maxWrite
    | .reading => c.direction = .read ∧ ∃ k ∈ (s.context p).phaseCount, c.maxRead ≠ 0 → k < c.maxRead
    | .limited => ∃ k ∈ (s.context p).phaseCount, match c.direction with
        | .write => c.maxWrite ≠ 0 → k ≤ c.maxWrite
        | .read => c.maxRead ≠ 0 → k ≤ c.maxRead
    | _ => True

end Sys2Proof.Machine
end

