-- ==== Sys2Proof/WellFormed.lean ====
section
/-! DEFINITION. What the operands of a command must satisfy beyond their types. Raw argument bytes have no
check here: the device checks them itself and answers BAD_ARGUMENT (R159). -/

namespace Sys2Proof

/-- A recovery attempt drives at most 16 clock pulses (R137, R138). -/
def AttemptResult.wf : AttemptResult → Bool
  | .success pulses => pulses ≤ 16
  | .failure => true

/-- The commands the device can meet: every one but a recovery success with more than 16 pulses. -/
def Instr.wf : Instr → Bool
  | .recoveryAttemptEnd _ r => r.wf
  | .powerOn _ | .rstAssert _ | .resetEnd | .start _ | .repeatedStart _ | .stop _ | .address _ _ _
  | .writeByte _ _ | .readByteWanted _ | .controllerAcknowledge _ _ | .byteComplete _ | .busError _
  | .managementWrite _ _ | .identify _ | .portStatus _ _ | .portConfigure _ _ _ _ _ _
  | .rightsGrant _ | .rightsRevoke _ | .routeLoad _ _ _ _ _ _ _ _ | .routeRead _ _ _
  | .policyLoad _ _ _ _ _ _ _ _ _ | .policyRead _ _ _ | .tableCommit _ _ _ | .tableDiscard _
  | .tableStatus _ | .counterRead _ _ | .segmentStatus _ _ | .segmentConfigure _ _ _ _ _ _ _
  | .segmentIsolate _ _ | .segmentRestore _ _ | .segmentRecover _ _ | .logPeek _ | .logPop _
  | .contextReset _ | .addressWaitLimit _ | .idleLimit _ | .refillTimer _ | .timestampTick
  | .quietIntervalObserved _ | .deferredQuietObserved _ | .addressOutcome _ _ _
  | .writeAcknowledge _ _ | .readByteReceived _ _ | .acknowledgeSlotDone _ | .arbitrationLoss _ _
  | .segmentStartSeen _ | .segmentStopSeen _ | .lineLowWithoutStart _ _ | .stretchFault _
  | .stuckLineFault _ _ | .stretchBudget _ | .closingStopDriven _ | .recoveryWaitEnd _
  | .copyBackEnd => true

end Sys2Proof
end

