-- ==== Sys2Proof/Certificates/Slice0/Obligations.lean ====
section
/-! DEFINITION. The statements for the provers. A statement about one command gives the next state as one
equation, so that everything it does not name is as it was. -/

open Sys2Proof Sys2Proof.Machine

/-! ## The machine and its resets -/

/-- A step runs the command at the front of the queue on the state with the queue's rest; on an empty queue
the block idles (the model's choice, notes/assumptions/3). -/
def Obligations.StepRunsFrontCommand : Prop :=
  (∀ (s : State) (c : Instr) (rest : List Instr),
    s.pending = c :: rest → step s = exec c { s with pending := rest }) ∧
  ∀ s : State, s.pending = [] → step s = .next s

/-- Every well-formed command answers a next state with the queue as it was, and every other one is refused
(the model's choice, notes/assumptions/18); in reset only a reset or its end reaches the device
(notes/assumptions/2). -/
def Obligations.CommandsAnswerAndLeaveQueue : Prop :=
  ∀ (c : Instr) (s : State),
    (c.wf = true → ∃ t, exec c s = .next t ∧ t.pending = s.pending) ∧
    (c.wf = false → exec c s = .refused .operandOutOfRange) ∧
    (s.resetActive = true → c.wf = true → (∀ h, c ≠ .powerOn h) → (∀ h, c ≠ .rstAssert h) →
      c ≠ .resetEnd → exec c s = .next s)

/-- The values of every block right after reset, for either level of the strap: no clock is held, no data line
driven, and every optional field of a path absent (R4, R19, R24, R32, R43, R61, R86, R99, R123, R145, R146,
R156, R172). -/
def Obligations.ResetValues : Prop :=
  ∀ h : Bool,
    let s := State.atReset h
    (OnPorts fun p =>
      (s.engine p).tracker = .idle ∧ (s.engine p).bits = 0 ∧ (s.engine p).hold = .none ∧
      (s.engine p).ack = none ∧ (s.engine p).sending = none ∧
      s.context p = ⟨.idle, none, none, none, none, none, none, false, none, none⟩ ∧
      (s.path p).stage = .empty ∧ (s.path p).claim = none ∧ (s.path p).byte = none ∧
      (s.path p).targetSending = none ∧
      (∀ n : SegId, (s.path p).outcomes[n] = none ∧ (s.path p).sums[n] = 0) ∧
      (s.record p).storedAddr = 0x5C ∧ (s.record p).effAddr = 0x5C ∧ (s.record p).waitLimit = 8 ∧
      (s.record p).idleLimit = 40 ∧ (s.record p).reception = none ∧ (s.record p).command = none ∧
      (s.record p).response = ⟨.none, []⟩ ∧
      ∀ k : EventKind, (s.record p).alertMask.getLsbD (eventCode k) = (k != .transaction)) ∧
    (s.record .a).rights = .full ∧ (s.record .b).rights = (if h then .full else .readOnly) ∧
    s.table.state = .opened ∧ s.table.activeBank = .p ∧ s.table.activeGen = 0 ∧
    s.table.revision = 0 ∧ s.table.activePins = 0 ∧ s.table.retiringPins = 0 ∧
    s.table.copyBack = none ∧ s.table.bankP = s.table.bankQ ∧
    (∀ i : RouteId, s.table.bankP.entries[i] = ⟨false, true, true, 0, 0, .forward 1 0 0⟩ ∧
      s.table.hits[i] = 0 ∧ s.table.denials[i] = 0) ∧
    (∀ i : ProfileId,
      s.table.bankP.profiles[i] = ⟨true, true, 0, 0, 0, 1, 10, 0, .any, true, false, true⟩ ∧
      s.credits[i] = ⟨0, none⟩) ∧
    s.waitList = [] ∧
    (∀ n : SegId, (s.segment n).state = .unsynced ∧
      (s.segment n).stored = ⟨.khz100, 5, 20, 3, true⟩ ∧ (s.segment n).inUse = (s.segment n).stored ∧
      (s.segment n).grants = 0 ∧ (s.segment n).aborts = 0 ∧ (s.segment n).arbLosses = 0 ∧
      (s.segment n).faults = 0 ∧ (s.segment n).recoveries = 0 ∧ (s.segment n).failedAttempts = 0) ∧
    s.log.records = [] ∧ s.log.nextSequence = 0 ∧ s.log.lost = 0 ∧ s.log.timestamp = 0 ∧
    s.log.alerts = ⟨false, false⟩

/-- Power-on and RST# have the same effect in every state: every block at its reset values (R17, R43, R61,
R145, R146, R172). At the end of the reset every segment is UNSYNCED with its measurements and its quiet
observation starting anew, and the timestamp counter is 0 (R17, R173). The model's choices: the count of
free choices is kept (notes/assumptions/19), and the working registers to which the spec gives no reset value
stand as in `State.atReset` (notes/assumptions/20). -/
def Obligations.ResetPlacesAndReleasesEveryBlock : Prop :=
  (∀ (s : State) (h : Bool), ∃ t,
    exec (.powerOn h) s = .next t ∧ exec (.rstAssert h) s = .next t ∧
    t = { State.atReset h with
          pending := s.pending, freeChoices := s.freeChoices, resetActive := true }) ∧
  ∀ s : State, s.resetActive = true →
    exec .resetEnd s = .next { s with
      resetActive := false
      log := { s.log with timestamp := 0 }
      segments := Vector.ofFn fun n =>
        { s.segment n with state := .unsynced, quiet := some (s.segment n).inUse.quiet,
                           lines := ⟨0, 0, 0, 0⟩ } }

/-! ## The upstream engine and the phase boundaries -/

/-- A start with the tracker IDLE opens a transaction: the tracker goes BUSY, the stored management address
comes into effect, the context records nothing. The end of an acknowledge slot, with the tracker BUSY: no bits
are taken, and the idle timer restarts in WRITING, READING and LIMITED (R2, R4, R5, R63, R77, R78, R147). That
the new run takes the idle limit in force at the restart is the model's reading (notes/assumptions/8). -/
def Obligations.StartAndByteComplete : Prop :=
  ∀ (s : State) (p : Port),
    (s.resetActive = false → (s.engine p).tracker = .idle →
      exec (.start p) s = .next
        (withRecord p { s.record p with effAddr := (s.record p).storedAddr }
          (withEngine p { s.engine p with tracker := .busy, bits := 0, addressNext := true, ack := none,
                                          sending := none, readOver := false, addressNaked := false } s))) ∧
    (Reports s p →
      exec (.byteComplete p) s = .next
        (withEngine p { s.engine p with bits := 0, ack := none }
          (if (s.context p).state.forwarding then
            withContext p { s.context p with idleTimer := some (s.record p).idleLimit } s else s)))

/-- A repeated start closes the phase that ends: in WRITING, READING and LIMITED the idle timer restarts
and the held set, the pin, the route and the policy are kept; TRANSACTION is raised where it is owed; a read
byte being presented ends with NAK first (R2, R64, R81, R113). That the new run of the idle timer takes the
idle limit in force at the restart is the model's reading (notes/assumptions/8), and that the NAK slot is
taken whole with its instruction another (notes/assumptions/6). A write in MGMT_WRITE is the subject of
WriteIsExecutedAtItsEnd. -/
def Obligations.RepeatedStartClosesPhase : Prop :=
  ∀ (s : State) (p : Port), Reports s p → (s.context p).state ≠ .mgmtWrite →
    let c := s.context p
    let owed := c.traceOwed && (c.state.forwarding || c.state == .ignoring || c.state == .aborted)
    let s1 := if (s.path p).stage = .readPresented then readEnded p s else s
    let c' : Context :=
      { c with traceOwed := c.traceOwed && !owed
               idleTimer := if c.state.forwarding then some (s.record p).idleLimit else c.idleTimer }
    let s2 := if owed then
      raise ⟨.transaction, some p, none, c.upstream, c.route, c.phaseCount.getD 0⟩ s1 else s1
    exec (.repeatedStart p) s = .next
      (withPath p { s1.path p with claim := none } (withContext p c'
        (withEngine p { s.engine p with bits := 0, addressNext := true, ack := none, sending := none,
                                        readOver := false, addressNaked := false } s2)))

/-- A stop ends the transaction in every state but MGMT_WRITE: a forwarding context releases its segments
and its pin, TRANSACTION is raised where it is owed, and the context is IDLE with every field absent (R2, R80,
R81, R94, R113, R118). That the NAK slot of a read byte being presented is taken whole with its instruction is
the model's reading (notes/assumptions/6). -/
def Obligations.StopEndsTransaction : Prop :=
  ∀ (s : State) (p : Port), Reports s p → (s.context p).state ≠ .mgmtWrite →
    let c := s.context p
    let owed := c.traceOwed && (c.state.forwarding || c.state == .ignoring || c.state == .aborted)
    let s1 := if (s.path p).stage = .readPresented then readEnded p s else s
    let s2 := if c.state.forwarding then
      { s1 with table := unpinnedTable p s1, segments := releasedSegments p false s1
                paths := s1.paths.set p (s1.path p).toEmpty } else s1
    let s3 := if owed then
      raise ⟨.transaction, some p, none, c.upstream, c.route, c.phaseCount.getD 0⟩ s2 else s2
    exec (.stop p) s = .next
      (withContext p ⟨.idle, none, none, none, none, none, none, false, none, none⟩
        (withPath p { s3.path p with claim := none }
          (withRecord p { s.record p with reception := none, readCopy := none }
            (withEngine p { s.engine p with tracker := .idle, bits := 0, addressNext := false,
                                            ack := none, sending := none, readOver := false,
                                            addressNaked := false } s3))))

/-- What a release does to one segment, what the path gives it to complete at each stage, and what a segment
controller does on its lines. A held segment in control closes with the completion of its stage; a deferred
one drives nothing and closes deferred, or ends its closing at once in UNSYNCED where the winner's stop has
been seen; a release by an abort counts on the aborts counter; a segment that is not held is left as it is. In
control of a held segment the device drives a start or a repeated start with the address byte, a byte, or ACK
in a slot, and holds the clock low in between (R11, R94, R100, R117, R124, R131, R135 to R138). The model's
readings: NAK in the slot of a mirrored ACK (notes/assumptions/12), the observation written down in UNSYNCED
(notes/assumptions/24), and the row of the address byte for a kept segment that still clocks in a byte to
discard (notes/assumptions/29) and for a segment that has not yet driven its own start
(notes/assumptions/33). -/
def Obligations.ReleaseOfSegment : Prop :=
  (∀ (x : Segment) (byAbort : Bool) (c : Completion),
    let aborts := if byAbort then satInc x.aborts else x.aborts
    (∀ h, x.state = .held h → h.deferred = false →
      x.released byAbort c =
        { x with state := .closing ⟨false, h.tries, c, none⟩, aborts := aborts, quiet := none }) ∧
    (∀ h, x.state = .held h → h.deferred = true → h.winnerStop = false →
      x.released byAbort c =
        { x with state := .closing ⟨true, h.tries, .none, none⟩, aborts := aborts, quiet := none }) ∧
    (∀ h, x.state = .held h → h.deferred = true → h.winnerStop = true →
      x.released byAbort c =
        { x with state := .unsynced, aborts := aborts, quiet := some x.inUse.quiet }) ∧
    ((∀ h, x.state ≠ .held h) → x.released byAbort c = x)) ∧
  (∀ (q : Path) (n : SegId) (c : Claim), q.claim = some c →
    let given := q.completionOf n
    (q.stage = .address → q.outcomes[n] = some .pending → given = .finishAddress c.direction) ∧
    (q.stage = .address → q.outcomes[n] = some .ack →
      given = if c.direction = .read then .clockByteNak else .none) ∧
    (q.stage = .address → q.outcomes[n] ∈ [none, some .nak, some .exhausted, some .fault] →
      given = .none) ∧
    (q.stage = .between → given = if q.targetSending = some true then .clockByteNak else .none) ∧
    (q.stage = .writeByte → given = if q.outcomes[n] = some .pending then .finishWrite else .none) ∧
    (q.stage = .readReceiving → given = .finishReadNak) ∧
    (q.stage = .readPresented → given = .slotNak) ∧
    (q.stage = .empty ∨ q.stage = .readEnded → given = .none)) ∧
  ∀ (s : State) (n : SegId),
    let x := s.segment n
    (∀ (h : HeldRec) (c : Claim), x.state = .held h → h.deferred = false →
      (s.path h.port).claim = some c →
      let q := s.path h.port
      (q.stage = .address → s.drive n = if q.outcomes[n] = some .pending then
        .opening h.completion h.opening c.address c.direction else .clockLow) ∧
      (∀ b, q.stage = .writeByte → q.byte = some b →
        s.drive n = if q.outcomes[n] = some .pending then .byteOut b else .clockLow) ∧
      (q.stage = .readReceiving → s.drive n = .byteIn) ∧
      (q.stage = .readPresented → s.drive n = if q.mirroring then .slotAck else .clockLow) ∧
      (q.stage = .between ∨ q.stage = .readEnded → s.drive n = .clockLow)) ∧
    (∀ c, x.state = .closing c → s.drive n = if c.deferred then .released else .closing c.completion) ∧
    (∀ r, x.state = .recovering r → s.drive n = if r.betweenAttempts then .released else .attempt) ∧
    ((∃ h, x.state = .held h ∧ h.deferred = true) ∨ x.state = .unsynced ∨ x.state = .idle ∨
      x.state = .foreign ∨ x.state = .isolated → s.drive n = .released)

/-- A condition inside an upstream byte: a forwarding context is aborted, a write being received is
discarded, and UPSTREAM_BUS_ERROR is raised in every state with the detail of the state (R8, R79, R83,
R84). -/
def Obligations.BusErrorByState : Prop :=
  ∀ (s : State) (p : Port), Reports s p → NoRequest s p →
    let c := s.context p
    let s1 := withEngine p { s.engine p with bits := 0, ack := none, sending := none,
                                             readOver := false, addressNaked := false } s
    let ev := fun detail => (⟨.upstreamBusError, some p, none, c.upstream, c.route, detail⟩ : Event)
    exec (.busError p) s = .next
      (if c.state.forwarding then abortedState p (raise (ev 1) s1)
       else if c.state = .mgmtWrite ∧ (s.record p).reception.isSome then
         withContext p { c with state := .ignoring }
           (withRecord p { s.record p with reception := none } (raise (ev 2) s1))
       else raise (ev 0) s1)

/-- The address wait limit in ADDRESSING: the segments are released and the phase is refused with DENY_WAIT,
under the log denials flag of the profile that the policy numbers in the pinned bank, and counted while the
entry's bank is ACTIVE. In WAITING the request is withdrawn and the wait list examined first (R31, R37, R69,
R75, R92). -/
def Obligations.WaitLimitRefuses : Prop :=
  ∀ (s : State) (p : Port), s.resetActive = false → (s.context p).waitTimer.isSome = true →
    let c := s.context p
    (c.state = .addressing → NoRequest s p →
      exec (.addressWaitLimit p) s = .next (deniedPhase p .denyWait none s)) ∧
    (c.state = .waiting → (∃ r ∈ s.waitList, r.port = p) → (∀ n, s.holds p n = false) →
      exec (.addressWaitLimit p) s = .next (deniedPhase p .denyWait none
        (examine { s with waitList := s.waitList.filter fun r => r.port != p })))

/-- The idle limit aborts a forwarding context whose clock is not held, with UPSTREAM_IDLE carrying the
phase byte count; a stretch sum that reaches the non-zero budget aborts the holding context with
STRETCH_BUDGET carrying the segment and the budget (R30, R78, R83, R115). That the sum then stands at the
budget is the model's choice (notes/assumptions/4). -/
def Obligations.IdleLimitAndBudgetAbort : Prop :=
  ∀ (s : State) (p : Port), s.resetActive = false → NoRequest s p →
    let x := s.context p
    (x.state.forwarding = true → x.idleTimer.isSome = true → (s.engine p).hold = .none →
      exec (.idleLimit p) s = .next (abortedState p
        (raise ⟨.upstreamIdle, some p, none, x.upstream, x.route, x.phaseCount.getD 0⟩ s))) ∧
    ∀ (n : SegId) (c : Claim), s.holds p n = true → x.state.holding = true →
      (s.path p).claim = some c → c.budget ≠ 0 →
      let q := { s.path p with sums := (s.path p).sums.set n c.budget.toNat }
      exec (.stretchBudget n) s = .next (abortedState p
        (raise ⟨.stretchBudget, some p, some n, x.upstream, x.route, c.budget⟩ (withPath p q s)))

/-! ## Management writes -/

/-- A whole management write: on a PENDING port or with no data byte it is discarded; otherwise the steps of
R150 settle its response in their order, and a write that passes them executes its command. Its reception is
discarded whatever the outcome (R148, R149, R150). -/
def Obligations.ManagementWriteChecked : Prop :=
  ∀ (s : State) (p : Port) (bytes : List Byte), s.resetActive = false →
    let r := s.record p
    let body := bytes.dropLast
    exec (.managementWrite p bytes) s = .next
      (if r.command.isSome ∨ bytes = [] then withRecord p { r with reception := none } s
       else if bytes.length = 1 ∨ 19 ≤ bytes.length then answered p .lengthError [] s
       else if bytes.getLast? ≠ some (checkByte body) then
         answered p .checkError []
           (raise ⟨.mgmtCheckError, some p, none, none, none, bytes.headD 0⟩ s)
       else match opOfCode (bytes.headD 0) with
         | none => answered p .unknownCommand [] s
         | some o =>
           if body.tail.length ≠ argCount o then answered p .lengthError [] s
           else if needsFull o p body.tail ∧ r.rights = .readOnly then answered p .deniedRights [] s
           else dropReception p (runCommand p o body.tail s))

/-- The reception of a context in MGMT_WRITE ends at a repeated start or a stop: a refused one, or one without
a byte, is discarded; one byte, or 19 and more, is a LENGTH_ERROR; a kept write of 2 to 18 bytes is executed as
MANAGEMENT_WRITE of its bytes. The boundary then acts (R64, R80, R148, R150). That two CONTEXT RESETs which
meet leave the later one discarded here is the model's choice (notes/assumptions/30). -/
def Obligations.WriteIsExecutedAtItsEnd : Prop :=
  ∀ (s u : State) (p : Port) (r : Reception), Reports s p →
    (s.context p).state = .mgmtWrite → (s.path p).stage ≠ .readPresented →
    (s.record p).reception = some r →
    (if r.refused = true ∨ r.count = 0 then u = withRecord p { s.record p with reception := none } s
     else if r.count = 1 ∨ 19 ≤ r.count then u = answered p .lengthError [] s
     else r.bytes.length = r.count ∧ (s.record p).command = none ∧
       exec (.managementWrite p r.bytes) s = .next u) →
    let e := u.engine p
    exec (.repeatedStart p) s = .next
      (withPath p { u.path p with claim := none }
        (withEngine p { e with bits := 0, addressNext := true, ack := none, sending := none,
                               readOver := false, addressNaked := false } u)) ∧
    exec (.stop p) s = .next
      (withContext p ⟨.idle, none, none, none, none, none, none, false, none, none⟩
        (withPath p { u.path p with claim := none }
          (withRecord p { u.record p with reception := none, readCopy := none }
            (withEngine p { e with tracker := .idle, bits := 0, addressNext := false, ack := none,
                                   sending := none, readOver := false, addressNaked := false } u))))

/-- Every management row is the management write with its frame: the same next state, for every port and
every argument. That a row of the table stands for the hand-over of a correct write is the model's reading
(notes/assumptions/7); the codes and layouts of the frames are those of the spec (R149, R150, R185 to R187). -/
def Obligations.RowsAreTheirFrames : Prop :=
  ∀ (s : State) (p : Port), s.resetActive = false → (s.record p).command = none →
    let same := fun (c : Instr) (bytes : List Byte) => exec c s = exec (.managementWrite p (frameOf bytes)) s
    same (.identify p) [0x01] ∧ (∀ q, same (.portStatus p q) [0x02, q]) ∧
    (∀ q a w i m, same (.portConfigure p q a w i m) ([0x03, q, a, w, i] ++ bytes32 m)) ∧
    same (.rightsGrant p) [0x04] ∧ same (.rightsRevoke p) [0x05] ∧
    (∀ i c m k g t f, same (.routeLoad p i c m k g t f) [0x10, i, c, m, k, g, t, f]) ∧
    (∀ r i, same (.routeRead p r i) [0x11, r, i]) ∧
    (∀ i f w r c a d b, same (.policyLoad p i f w r c a d b) [0x12, i, f, w, r, c, a, d, b]) ∧
    (∀ r i, same (.policyRead p r i) [0x13, r, i]) ∧
    (∀ e f, same (.tableCommit p e f) ([0x14] ++ bytes16 e ++ [f])) ∧
    same (.tableDiscard p) [0x15] ∧ same (.tableStatus p) [0x16] ∧
    (∀ i, same (.counterRead p i) [0x17, i]) ∧ (∀ n, same (.segmentStatus p n) [0x20, n]) ∧
    (∀ n v q t r a, same (.segmentConfigure p n v q t r a) [0x21, n, v, q, t, r, a]) ∧
    (∀ n, same (.segmentIsolate p n) [0x22, n]) ∧ (∀ n, same (.segmentRestore p n) [0x23, n]) ∧
    (∀ n, same (.segmentRecover p n) [0x24, n]) ∧ same (.logPeek p) [0x30] ∧
    same (.logPop p) [0x31] ∧ same (.contextReset p) [0x3F]

/-- A frame followed by its check byte checks to 0, and the three frames the spec lists carry the check bytes
0xD9, 0x5D and 0x70 (R149). -/
def Obligations.CheckByteClosesFrames : Prop :=
  (∀ bytes : List Byte, checkByte (frameOf bytes) = 0) ∧
  checkByte [0x01] = 0xD9 ∧ checkByte [0x20, 0x05] = 0x5D ∧ checkByte [0x24, 0x05] = 0x70

/-- IDENTIFY returns the vendor code, the part code, the revision, the issuing port and its rights, and
changes nothing else (R160). -/
def Obligations.IdentifyReports : Prop :=
  ∀ (s : State) (p : Port), Accepts s p →
    exec (.identify p) s = .next (answered p .ok
      [0x0C, 0xD7, 0x85, 0x02, 0x01, (match p with | .a => 0 | .b => 1),
        (match (s.record p).rights with | .readOnly => 0 | .full => 1)] s)

/-- PORT STATUS of the other port reports its context as it stands; of the issuing port, MGMT_WRITE with no
segment, pin or route; with the named port's rights and stored management address; a port argument over 1 is
BAD_ARGUMENT (R159, R161, R184, R187). -/
def Obligations.PortStatusReports : Prop :=
  ∀ (s : State) (p : Port), Accepts s p →
    (∀ q : Port,
      let c := s.context q
      let r := s.record q
      let code : Byte := match c.state with
        | .idle => 0x00 | .ignoring => 0x01 | .mgmtWrite => 0x02 | .mgmtRead => 0x03 | .waiting => 0x04
        | .addressing => 0x05 | .writing => 0x06 | .reading => 0x07 | .limited => 0x08 | .aborted => 0x09
      let tail : List Byte := [(match r.rights with | .readOnly => 0 | .full => 1), r.storedAddr.setWidth 8]
      exec (.portStatus p (match q with | .a => 0 | .b => 1)) s = .next (answered p .ok
        (if q = p then [0x02, 0x00, 0xFF, 0xFF, 0xFF] ++ tail
         else [code, s.heldSet q] ++ bytes16 (c.pin.getD 0xFFFF) ++
           [(match c.route with | some i => BitVec.ofNat 8 i.val | none => 0xFF)] ++ tail) s)) ∧
    ∀ b : Byte, b ≠ 0 → b ≠ 1 → exec (.portStatus p b) s = .next (answered p .badArgument [] s)

/-- PORT CONFIGURE writes the four settings of the named port at once, keeps only the 23 mask bits of the
event kinds, and has that port's alert output alone evaluated. RIGHTS GRANT and RIGHTS REVOKE act on the port
that did not issue them (R157 to R159, R162, R181, R187). -/
def Obligations.PortSettingsAndRights : Prop :=
  ∀ (s : State) (p : Port), Accepts s p →
    (∀ (q : Port) (addr wait idle : Byte) (mask : BitVec 32), (q = p ∨ FullRights s p) →
      1 ≤ addr.toNat → addr.toNat ≤ 119 → wait ≠ 0 → idle ≠ 0 →
      let m := mask &&& 0x00FFFFFE
      let alerts := s.log.alerts.set q
        (s.log.records.any fun r => m.getLsbD (eventCode r.event.kind))
      exec (.portConfigure p (match q with | .a => 0 | .b => 1) addr wait idle mask) s = .next
        (answered p .ok [] (withRecord q
          { s.record q with storedAddr := addr.setWidth 7, waitLimit := wait, idleLimit := idle,
                            alertMask := m }
          { s with log := { s.log with alerts := alerts } }))) ∧
    (FullRights s p →
      let q : Port := match p with | .a => .b | .b => .a
      exec (.rightsGrant p) s = .next
        (answered p .ok [] (withRecord q { s.record q with rights := .full } s)) ∧
      exec (.rightsRevoke p) s = .next
        (answered p .ok [] (withRecord q { s.record q with rights := .readOnly } s)))

/-- Without full rights each command that needs them is refused with DENIED_RIGHTS and changes nothing else
(R150, R157). -/
def Obligations.ReadOnlyPortIsDenied : Prop :=
  ∀ (s : State) (p : Port), Accepts s p → (s.record p).rights = .readOnly →
    let denied := fun (c : Instr) => exec c s = .next (answered p .deniedRights [] s)
    denied (.rightsGrant p) ∧ denied (.rightsRevoke p) ∧
    (∀ q a w i m, q ≠ (match p with | .a => 0 | .b => 1) → denied (.portConfigure p q a w i m)) ∧
    (∀ i c m k g t f, denied (.routeLoad p i c m k g t f)) ∧
    (∀ i f w r c a d b, denied (.policyLoad p i f w r c a d b)) ∧
    (∀ e f, denied (.tableCommit p e f)) ∧ denied (.tableDiscard p) ∧
    (∀ n v q t r a, denied (.segmentConfigure p n v q t r a)) ∧
    (∀ n, denied (.segmentIsolate p n)) ∧ (∀ n, denied (.segmentRestore p n)) ∧
    (∀ n, denied (.segmentRecover p n)) ∧ denied (.logPop p) ∧ denied (.contextReset p)

/-- A command with any argument out of range is answered BAD_ARGUMENT with no data and changes nothing else,
in every state of the owning block: on a port that may issue it (R159). -/
def Obligations.ArgumentsOutOfRangeRefused : Prop :=
  ∀ (s : State) (p : Port), Accepts s p →
    let bad := fun (c : Instr) => exec c s = .next (answered p .badArgument [] s)
    let own : Byte := match p with | .a => 0 | .b => 1
    (∀ q, 1 < q.toNat → bad (.portStatus p q)) ∧
    (∀ a w i m, a = 0 ∨ 119 < a.toNat ∨ w = 0 ∨ i = 0 → bad (.portConfigure p own a w i m)) ∧
    (∀ r i, 1 < r.toNat ∨ 63 < i.toNat → bad (.routeRead p r i)) ∧
    (∀ r i, 1 < r.toNat ∨ 15 < i.toNat → bad (.policyRead p r i)) ∧
    (∀ i, 63 < i.toNat → bad (.counterRead p i)) ∧
    (∀ n, 7 < n.toNat → bad (.segmentStatus p n)) ∧
    (FullRights s p →
      (∀ q a w i m, 1 < q.toNat ∨ a = 0 ∨ 119 < a.toNat ∨ w = 0 ∨ i = 0 →
        bad (.portConfigure p q a w i m)) ∧
      (∀ i c m k g t f, 63 < i.toNat ∨ 127 < m.toNat ∨ 127 < k.toNat ∨ 127 < t.toNat ∨ 15 < f.toNat →
        bad (.routeLoad p i c m k g t f)) ∧
      (∀ i f w r c a d b, 15 < i.toNat ∨ a = 0 ∨ d = 0 → bad (.policyLoad p i f w r c a d b)) ∧
      (∀ e f, 1 < f.toNat → bad (.tableCommit p e f)) ∧
      (∀ n v q t r a,
        7 < n.toNat ∨ v &&& 3 = 3 ∨ q = 0 ∨ 50 < q.toNat ∨ t = 0 ∨ 7 < r.toNat ∨ 1 < a.toNat →
        bad (.segmentConfigure p n v q t r a)) ∧
      (∀ n, 7 < n.toNat → bad (.segmentIsolate p n) ∧ bad (.segmentRestore p n) ∧ bad (.segmentRecover p n)))

/-! ## The table controller -/

/-- In OPEN, a load with arguments in range replaces one record of the staging bank whole and adds one to
the staging revision, which saturates; in DRAINING and COPYING it is BUSY (R18, R45, R49, R159, R186). -/
def Obligations.LoadsWriteStaging : Prop :=
  ∀ (s : State) (p : Port), Accepts s p → FullRights s p →
    let stored := fun (b : Bank) =>
      let t := { s.table with revision := if s.table.revision = 65535 then 65535 else s.table.revision + 1 }
      let t := match t.activeBank with | .p => { t with bankQ := b } | .q => { t with bankP := b }
      if s.table.state = .opened then answered p .ok [] { s with table := t }
      else answered p .busy [] s
    let staging := match s.table.activeBank with | .p => s.table.bankQ | .q => s.table.bankP
    (∀ (i : RouteId) (control matchAddr mask segments translate : Byte) (f : ProfileId),
      matchAddr.toNat < 128 → mask.toNat < 128 → translate.toNat < 128 →
      let e : RouteEntry :=
        ⟨control.getLsbD 7, control.getLsbD 0, control.getLsbD 1, matchAddr.setWidth 7, mask.setWidth 7,
          if control.getLsbD 6 then .deny else .forward segments (translate.setWidth 7) f⟩
      exec (.routeLoad p (BitVec.ofNat 8 i.val) control matchAddr mask segments translate
        (BitVec.ofNat 8 f.val)) s = .next (stored { staging with entries := staging.entries.set i e })) ∧
    ∀ (i : ProfileId) (flags w r credit amount period budget : Byte), amount ≠ 0 → period ≠ 0 →
      let f : Profile :=
        ⟨flags.getLsbD 0, flags.getLsbD 1, w, r, credit, amount, period, budget,
          if flags.getLsbD 2 then .all else .any, flags.getLsbD 3, flags.getLsbD 4, flags.getLsbD 5⟩
      exec (.policyLoad p (BitVec.ofNat 8 i.val) flags w r credit amount period budget) s =
        .next (stored { staging with profiles := staging.profiles.set i f })

/-- ROUTE READ and POLICY READ return one record of the bank a role names, in the layout of a load, a DENY
entry with its absent bytes 0, a profile with its live credit count; STAGING is BUSY outside OPEN. TABLE
STATUS returns the state, the active generation, the revision and the two pin counts; COUNTER READ the hit and
the denial counter of an entry of the active bank. Nothing else changes (R50, R51, R164, R186, R187). -/
def Obligations.TableReadsReport : Prop :=
  ∀ (s : State) (p : Port), Accepts s p →
    let active := match s.table.activeBank with | .p => s.table.bankP | .q => s.table.bankQ
    let staging := match s.table.activeBank with | .p => s.table.bankQ | .q => s.table.bankP
    let bit := fun (b : Bool) (v : Byte) => if b then v else 0
    let route := fun (i : RouteId) (e : RouteEntry) =>
      ([BitVec.ofNat 8 i.val,
        bit e.valid 0x80 ||| bit (e.action == .deny) 0x40 ||| bit e.portB 0x02 ||| bit e.portA 0x01,
        e.matchAddr.setWidth 8, e.mask.setWidth 8] : List Byte) ++
      match e.action with
      | .deny => [0, 0, 0]
      | .forward g t f => [g, t.setWidth 8, BitVec.ofNat 8 f.val]
    let profile := fun (i : ProfileId) (f : Profile) =>
      ([BitVec.ofNat 8 i.val,
        bit f.writeAllowed 0x01 ||| bit f.readAllowed 0x02 ||| bit (f.fanOut == .all) 0x04 |||
          bit f.chaining 0x08 ||| bit f.logTransactions 0x10 ||| bit f.logDenials 0x20,
        f.maxWrite, f.maxRead, f.creditMax, f.refillAmount, f.refillPeriod, f.stretchBudget,
        (s.credits[i]).count] : List Byte)
    (∀ i : RouteId,
      exec (.routeRead p 0 (BitVec.ofNat 8 i.val)) s =
        .next (answered p .ok (route i active.entries[i]) s) ∧
      exec (.routeRead p 1 (BitVec.ofNat 8 i.val)) s = .next
        (if s.table.state = .opened then answered p .ok (route i staging.entries[i]) s
         else answered p .busy [] s)) ∧
    (∀ i : ProfileId,
      exec (.policyRead p 0 (BitVec.ofNat 8 i.val)) s =
        .next (answered p .ok (profile i active.profiles[i]) s) ∧
      exec (.policyRead p 1 (BitVec.ofNat 8 i.val)) s = .next
        (if s.table.state = .opened then answered p .ok (profile i staging.profiles[i]) s
         else answered p .busy [] s)) ∧
    exec (.tableStatus p) s = .next (answered p .ok
      (([match s.table.state with | .opened => 0 | .draining => 1 | .copying => 2] : List Byte) ++
        bytes16 s.table.activeGen ++ bytes16 s.table.revision ++
        [BitVec.ofNat 8 s.table.activePins, BitVec.ofNat 8 s.table.retiringPins]) s) ∧
    ∀ i : RouteId, exec (.counterRead p (BitVec.ofNat 8 i.val)) s = .next
      (answered p .ok (bytes32 s.table.hits[i] ++ bytes16 s.table.denials[i]) s)

/-- A commit is refused in the order state, revision, validation, and a refusal changes nothing but the
response buffer. Otherwise it is taken; without force the staging bank becomes ACTIVE under the next
generation, 65534 being followed by 1, the pins move to the retiring count, the counters are zeroed, the
credits are adjusted, and the controller drains while a pin is left (R35, R38, R41, R44, R48, R52, R53, R159,
R165). -/
def Obligations.CommitTakenOrRefused : Prop :=
  ∀ (s : State) (p : Port) (expected : BitVec 16), Accepts s p → FullRights s p →
    let t := s.table
    let gen := if t.activeGen = 65534 then 1 else t.activeGen + 1
    let run := fun (force : Byte) => exec (.tableCommit p expected force) s
    let refused := fun (force : Byte) (status : Status) (data : List Byte) =>
      run force = .next (answered p status data s)
    (∀ force, 1 < force.toNat → refused force .badArgument []) ∧
    (∀ force, force.toNat ≤ 1 → t.state ≠ .opened → refused force .busy []) ∧
    (∀ force, force.toNat ≤ 1 → t.state = .opened → expected ≠ t.revision → refused force .stale []) ∧
    (∀ force (i : RouteId) (reason : Byte), force.toNat ≤ 1 → t.state = .opened →
      expected = t.revision → bankFailure t.other = some (i, reason) →
      refused force .invalid [BitVec.ofNat 8 i.val, reason]) ∧
    (t.state = .opened → expected = t.revision → bankFailure t.other = none →
      run 0 = .next (answered p .ok (bytes16 gen)
        { s with
          table := { t with
            activeBank := (match t.activeBank with | .p => .q | .q => .p)
            activeGen := gen
            activePins := 0
            retiringPins := t.activePins
            retiringGen := if t.activePins = 0 then none else some t.activeGen
            hits := Vector.replicate 64 0
            denials := Vector.replicate 64 0
            state := if t.activePins = 0 then .copying else .draining
            copyBack := some (.commit p) }
          credits := Vector.ofFn fun i =>
            adjustedCredit t.active.profiles[i] t.other.profiles[i] s.credits[i] }))

/-- A forced take exchanges the roles of the banks under the next generation with no pin left, zeroes the
counters, adjusts the credits, records its copy-back and goes straight to COPYING; it raises COMMIT_FORCED
with the number of contexts pinned to the generation that retires, stored in a log with room and lost by a
full one, and aborts each of them, a clock held at an acknowledge slot released with NAK and an awaited read
byte with 0xFF; a context without such a pin is left as it is. Where the two contexts do not both wait, every
held segment is released by its abort and nothing is granted (R35, R38, R44, R48, R53, R54, R82, R83, R175,
R181). Where they do, the order of their aborts is a free value (notes/assumptions/9). -/
def Obligations.ForcedCommitAborts : Prop :=
  ∀ (s : State) (p : Port), Accepts s p → FullRights s p → s.table.state = .opened →
    bankFailure s.table.other = none → Agreement s →
    let old := s.table
    let gen := if old.activeGen = 65534 then 1 else old.activeGen + 1
    let n := pinCount s old.activeGen
    ∃ t, exec (.tableCommit p old.revision 1) s = .next t ∧
      t.table = { old with
        activeBank := (match old.activeBank with | .p => .q | .q => .p)
        activeGen := gen
        activePins := 0
        retiringPins := 0
        retiringGen := none
        hits := Vector.replicate 64 0
        denials := Vector.replicate 64 0
        state := .copying
        copyBack := some (.commit p) } ∧
      (∀ i : ProfileId,
        t.credits[i] = adjustedCredit old.active.profiles[i] old.other.profiles[i] s.credits[i]) ∧
      (let records := s.log.records ++
        [⟨s.log.nextSequence, s.log.timestamp,
          ⟨.commitForced, some p, none, none, none, BitVec.ofNat 8 n⟩⟩]
      t.log = if s.log.records.length < 32 then
          ⟨records, s.log.nextSequence + 1, s.log.lost, s.log.timestamp,
            ⟨alertLevel (s.record .a).alertMask records, alertLevel (s.record .b).alertMask records⟩⟩
        else { s.log with lost := satInc s.log.lost }) ∧
      (OnPorts fun q =>
        if (s.context q).pin.isSome then
          (t.context q).state = .aborted ∧ (t.context q).pin = none ∧ (∀ m, t.holds q m = false) ∧
          NoRequest t q ∧ (t.path q).stage = .empty ∧ t.engine q = unheldEngine (s.engine q)
        else t.context q = s.context q ∧ t.path q = s.path q ∧ t.engine q = s.engine q) ∧
      ((s.context .a).state ≠ .waiting ∨ (s.context .b).state ≠ .waiting →
        ∀ m : SegId, t.segment m = match (s.segment m).state with
          | .held h => (s.segment m).released true ((s.path h.port).completionOf m)
          | _ => s.segment m) ∧
      (t.record p).response = ⟨.ok, bytes16 gen⟩

/-- TABLE DISCARD in OPEN begins a copy-back and leaves the port PENDING; elsewhere it is BUSY. At the end of
a copy-back the copy target holds the content of ACTIVE and the revision is 0 in OPEN; a commit's raises
COMMIT_DONE with the low 8 bits of the generation, a discard's places the response it still owes (R45, R56,
R58, R59, R154). -/
def Obligations.DiscardAndCopyBack : Prop :=
  (∀ (s : State) (p : Port), Accepts s p → FullRights s p →
    exec (.tableDiscard p) s = .next
      (if s.table.state = .opened then
        leftPending p .tableDiscard
          { s with table := { s.table with state := .copying, copyBack := some (.discard p true) } }
       else answered p .busy [] s)) ∧
  ∀ s : State, s.resetActive = false → s.table.state = .copying →
    let t := { s.table with state := .opened, revision := 0, copyBack := none }
    let t := match t.activeBank with
      | .p => { t with bankQ := t.bankP }
      | .q => { t with bankP := t.bankQ }
    let u := { s with table := t }
    exec .copyBackEnd s = .next (match s.table.copyBack with
      | some (.commit p) =>
        raise ⟨.commitDone, some p, none, none, none, s.table.activeGen.setWidth 8⟩ u
      | some (.discard p true) => completed p .ok [] u
      | _ => u)

/-! ## Segment and log commands -/

/-- SEGMENT STATUS returns the state, held by, the five counters and failed attempts, fourteen bytes, and
changes nothing else; SEGMENT CONFIGURE writes the five fields of the stored configuration at once in any
segment state, the configuration in use staying as it is; of the speed byte only bits 0 and 1 count (R123,
R159, R166, R184, R187). -/
def Obligations.SegmentStatusAndConfigure : Prop :=
  ∀ (s : State) (p : Port) (n : SegId), Accepts s p →
    let x := s.segment n
    let number : Byte := BitVec.ofNat 8 n.val
    let code : Byte := match x.state with
      | .unsynced => 0x00 | .idle => 0x01 | .foreign => 0x02 | .held _ => 0x03 | .closing _ => 0x04
      | .recovering _ => 0x05 | .isolated => 0x06
    exec (.segmentStatus p number) s = .next (answered p .ok
      (([code, match x.state with
          | .held h => (match h.port with | .a => 0 | .b => 1)
          | _ => 0xFF] : List Byte) ++
        bytes32 x.grants ++ bytes16 x.aborts ++ bytes16 x.arbLosses ++ bytes16 x.faults ++
        [x.recoveries, BitVec.ofNat 8 x.failedAttempts]) s) ∧
    ∀ (v : Speed) (speed quiet stretch retry : Byte) (auto : Bool), FullRights s p →
      speed &&& 3 = (match v with | .khz100 => 0 | .khz400 => 1 | .mhz1 => 2) →
      1 ≤ quiet.toNat → quiet.toNat ≤ 50 → stretch ≠ 0 → retry.toNat ≤ 7 →
      exec (.segmentConfigure p number speed quiet stretch retry (if auto then 1 else 0)) s = .next
        (answered p .ok [] (withSegment n { x with stored := ⟨v, quiet, stretch, retry, auto⟩ } s))

/-- SEGMENT ISOLATE by the state of the segment: a free one goes to ISOLATED at once; a recovering one too,
its requester answered ABORTED; a closing one is marked, or the command is BUSY; an isolated one answers
WRONG_STATE. At the entry into ISOLATED each waiting request that names the segment is refused with
DENY_SEGMENT_DOWN, under WITHDRAW or with no other member left, or loses the segment under DROP, and the wait
list is examined (R74, R93, R141, R154). That SEGMENT_ISOLATED is raised before the refusals and the requests
are met oldest first is the model's choice (notes/assumptions/10). -/
def Obligations.SegmentIsolateByState : Prop :=
  ∀ (s : State) (p : Port) (n : SegId), Accepts s p → FullRights s p →
    let x := s.segment n
    let run := exec (.segmentIsolate p (BitVec.ofNat 8 n.val)) s
    let ev : Event := ⟨.segmentIsolated, some p, some n, none, none, 1⟩
    let gone := fun (u : State) =>
      isolationMet n (raise ev (withSegment n { x with state := .isolated, quiet := none } u))
    (x.state = .idle ∨ x.state = .unsynced ∨ x.state = .foreign →
      run = .next (answered p .ok [] (gone s)) ∧
      ∀ r, s.waitList = [r] → segMem r.segments n = true →
        let u := raise ev (withSegment n { x with state := .isolated, quiet := none } s)
        let others := ∃ m : SegId, m ≠ n ∧ segMem r.segments m = true
        (r.handling = .withdraw ∨ ¬ others → run = .next (answered p .ok []
          (deniedPhase r.port .denySegmentDown (some n) { u with waitList := [] }))) ∧
        (r.handling = .drop → others → run = .next (answered p .ok [] (examine { u with
          waitList := [{ r with segments := r.segments &&& ~~~(1#8 <<< n.val) }] })))) ∧
    (∀ r, x.state = .recovering r →
      run = .next (answered p .ok [] (gone (match r.requestedBy with
        | some q => completed q .aborted [0x06] s
        | none => s)))) ∧
    (∀ c, x.state = .closing c → c.isolation = none →
      run = .next (leftPending p (.segmentIsolate n)
        (withSegment n { x with state := .closing { c with isolation := some ⟨p, true⟩ } } s))) ∧
    (∀ c i, x.state = .closing c → c.isolation = some i → run = .next (answered p .busy [] s)) ∧
    (x.state = .isolated → run = .next (answered p .wrongState [] s))

/-- SEGMENT ISOLATE of a held segment aborts its holder with reason ISOLATE: every segment of the holder is
released; the named one closes with isolation pending and the port left PENDING, or, deferred with the
winner's stop already seen, is ISOLATED at once and answered OK (R82, R83, R136, R141). That PENDING and the
final response then fall into one happening is the model's reading (notes/assumptions/25), and that
SEGMENT_ISOLATED is raised before the arbiter's refusals its choice (notes/assumptions/10). -/
def Obligations.SegmentIsolateOfHeldAborts : Prop :=
  ∀ (s : State) (p holder : Port) (n : SegId) (h : HeldRec), Accepts s p → FullRights s p →
    (s.segment n).state = .held h → h.port = holder → (s.context holder).state.holding = true →
    NoRequest s holder →
    let u := abortedState holder s
    exec (.segmentIsolate p (BitVec.ofNat 8 n.val)) s = .next
      (match (u.segment n).state with
        | .closing c => leftPending p (.segmentIsolate n)
            (withSegment n { u.segment n with state := .closing { c with isolation := some ⟨p, true⟩ } } u)
        | _ => answered p .ok [] (isolationMet n
            (raise ⟨.segmentIsolated, some p, some n, none, none, 1⟩
              (withSegment n { u.segment n with state := .isolated, quiet := none } u))))

/-- SEGMENT RESTORE takes an ISOLATED segment to UNSYNCED with a new quiet observation, keeping its counters,
failed attempts and configurations, and answers WRONG_STATE elsewhere. SEGMENT RECOVER begins a recovery from
IDLE, UNSYNCED and ISOLATED under the stored configuration and leaves the port PENDING; it is BUSY in HELD,
CLOSING and RECOVERING, and WRONG_STATE in FOREIGN (R137, R142, R143). That the line-low measurements then
stand at 0 is the model's choice (notes/assumptions/4), and that the quiet observation is written down as
running at the restore its reading (notes/assumptions/24). -/
def Obligations.SegmentRestoreAndRecover : Prop :=
  ∀ (s : State) (p : Port) (n : SegId), Accepts s p → FullRights s p →
    let x := s.segment n
    let number : Byte := BitVec.ofNat 8 n.val
    exec (.segmentRestore p number) s = .next
      (if x.state = .isolated then
        answered p .ok [] (raise ⟨.segmentRestored, some p, some n, none, none, 0⟩
          (withSegment n { x with state := .unsynced, quiet := some x.inUse.quiet,
                                  lines := ⟨x.lines.heldInterval, 0, 0, 0⟩ } s))
       else answered p .wrongState [] s) ∧
    exec (.segmentRecover p number) s = .next (match x.state with
      | .idle | .unsynced | .isolated =>
        leftPending p (.segmentRecover n)
          (withSegment n { x with state := .recovering ⟨some p, false⟩, quiet := none,
                                  inUse := x.stored, failedAttempts := 0 } s)
      | .held _ | .closing _ | .recovering _ => answered p .busy [] s
      | .foreign => answered p .wrongState [] s)

/-- LOG PEEK returns the record count, the lost count and the oldest record, or EMPTY, and leaves the log as
it was. LOG POP returns the same, then removes the oldest record, sets the lost count to 0 and, at a removal,
has both alert outputs evaluated (R168, R169, R179, R184, R188). -/
def Obligations.LogPeekAndPop : Prop :=
  ∀ (s : State) (p : Port), Accepts s p →
    let count : Byte := BitVec.ofNat 8 s.log.records.length
    let code := fun (k : EventKind) => match k with
      | .denyRule => 0x01 | .denyChain => 0x02 | .denyDirection => 0x03 | .denySegmentDown => 0x04
      | .denyCredits => 0x05 | .denyWait => 0x06 | .arbExhausted => 0x07 | .arbLostData => 0x08
      | .lengthWrite => 0x09 | .lengthRead => 0x0A | .stretchBudget => 0x0B | .stretchLimit => 0x0C
      | .segmentBusError => 0x0D | .upstreamBusError => 0x0E | .upstreamIdle => 0x0F
      | .segmentFault => 0x10 | .segmentRecovered => 0x11 | .segmentIsolated => 0x12
      | .segmentRestored => 0x13 | .commitDone => 0x14 | .commitForced => 0x15
      | .mgmtCheckError => 0x16 | .transaction => 0x17
    let two := fun (x : BitVec 16) => ([x.extractLsb' 8 8, x.extractLsb' 0 8] : List Byte)
    let four := fun (x : BitVec 32) =>
      ([x.extractLsb' 24 8, x.extractLsb' 16 8, x.extractLsb' 8 8, x.extractLsb' 0 8] : List Byte)
    let form := fun (r : LogRecord) => two r.sequence ++ four r.timestamp ++
      ([BitVec.ofNat 8 (code r.event.kind),
        (match r.event.port with | some .a => 0x00 | some .b => 0x01 | none => 0xFF),
        (match r.event.segment with | some n => BitVec.ofNat 8 n.val | none => 0xFF),
        (match r.event.upstream with | some x => x.setWidth 8 | none => 0xFF),
        (match r.event.route with | some i => BitVec.ofNat 8 i.val | none => 0xFF),
        r.event.detail] : List Byte)
    let reply := fun (u : State) => match s.log.records with
      | [] => answered p .empty ([0] ++ two s.log.lost) u
      | r :: _ => answered p .ok ([count] ++ two s.log.lost ++ form r) u
    let left := s.log.records.tail
    let alert := fun (q : Port) => left.any fun r => (s.record q).alertMask.getLsbD (code r.event.kind)
    exec (.logPeek p) s = .next (reply s) ∧
    (FullRights s p → exec (.logPop p) s = .next (reply { s with log :=
      { s.log with records := left, lost := 0
                   alerts := if s.log.records = [] then s.log.alerts else ⟨alert .a, alert .b⟩ } }))

/-- CONTEXT RESET: both contexts IDLE, no request and no held segment, the upstream clock of an aborted context
released with NAK or 0xFF, the other port's write and command ended with NONE in its buffer, every segment taken
as its state says with its counters at 0, a held one closing with the completion its path gives it, the path of
an aborted context EMPTY without outcomes, byte and target sending and any other path as it was, no pin left,
the log emptied with its numbering kept, the credits at their maxima, the hit and denial counters 0, OK for the
issuer; trackers, bit counts and byte shifters, the banks, the generation, the revision, the rights, the
settings and the configurations are kept (R4, R32, R38, R83, R85, R97, R117, R119, R120, R145, R170). The
model's readings: the observations that run in UNSYNCED (notes/assumptions/24), a read byte being sent and an
ACK being given left to their end (notes/assumptions/31), and the supplied 0xFF kept out of the shifter
(notes/assumptions/32). -/
def Obligations.ContextResetClears : Prop :=
  ∀ (s : State) (p : Port), Accepts s p → FullRights s p → Agreement s →
    let q : Port := match p with | .a => .b | .b => .a
    ∃ t, exec (.contextReset p) s = .next t ∧
      (OnPorts fun r => t.context r = ⟨.idle, none, none, none, none, none, none, false, none, none⟩ ∧
        (t.path r).stage = .empty ∧ (t.record r).reception = none ∧ (t.record r).readCopy = none ∧
        (let c := (s.context r).state
        if c = .idle ∨ c = .aborted ∨ (r = p ∧ c = .mgmtWrite) then
          t.engine r = s.engine r ∧ t.path r = s.path r
        else
          t.engine r = { unheldEngine (s.engine r) with shifter := (s.engine r).shifter } ∧
          t.path r = { s.path r with stage := .empty, outcomes := Vector.replicate 8 none, byte := none,
                                     targetSending := none, mirroring := false, wanted := false }) ∧
        ((s.context r).state.pinned = true → (t.engine r).hold = .none) ∧
        (t.engine r).tracker = (s.engine r).tracker ∧ (t.engine r).bits = (s.engine r).bits ∧
        (t.engine r).shifter = (s.engine r).shifter ∧
        (t.record r).rights = (s.record r).rights ∧ (t.record r).storedAddr = (s.record r).storedAddr ∧
        (t.record r).effAddr = (s.record r).effAddr ∧ (t.record r).waitLimit = (s.record r).waitLimit ∧
        (t.record r).idleLimit = (s.record r).idleLimit ∧
        (t.record r).alertMask = (s.record r).alertMask ∧ (t.record r).command = none) ∧
      (t.record p).response = ⟨.ok, []⟩ ∧ (t.record q).response = ⟨.none, []⟩ ∧
      t.waitList = [] ∧
      (∀ n : SegId,
        let x := s.segment n
        let y := t.segment n
        (match x.state with
          | .unsynced | .idle | .foreign | .recovering _ =>
            y.state = .unsynced ∧ y.quiet = some x.inUse.quiet
          | .closing c => y.state = .closing { c with isolation := c.isolation.map fun i => ⟨i.port, false⟩ }
          | .held h =>
            if h.deferred ∧ h.winnerStop then y.state = .unsynced ∧ y.quiet = some x.inUse.quiet
            else y.state = .closing ⟨h.deferred, h.tries,
              if h.deferred then .none else (s.path h.port).completionOf n, none⟩
          | .isolated => y.state = .isolated) ∧
        y.stored = x.stored ∧ y.inUse = x.inUse ∧ y.lines = x.lines ∧ y.bits = x.bits ∧
        y.grants = 0 ∧ y.aborts = 0 ∧ y.arbLosses = 0 ∧ y.faults = 0 ∧ y.recoveries = 0 ∧
        y.failedAttempts = 0) ∧
      t.log = ⟨[], s.log.nextSequence, 0, s.log.timestamp, ⟨false, false⟩⟩ ∧
      (∀ i : ProfileId, t.credits[i] = ⟨(s.table.active.profiles[i]).creditMax, (s.credits[i]).timer⟩) ∧
      (∀ i : RouteId, t.table.hits[i] = 0 ∧ t.table.denials[i] = 0) ∧
      t.table.bankP = s.table.bankP ∧ t.table.bankQ = s.table.bankQ ∧
      t.table.activeBank = s.table.activeBank ∧ t.table.activeGen = s.table.activeGen ∧
      t.table.revision = s.table.revision ∧ t.table.activePins = 0 ∧ t.table.retiringPins = 0 ∧
      t.table.retiringGen = none ∧
      t.table.state = (if s.table.state = .draining then .copying else s.table.state) ∧
      t.table.copyBack = s.table.copyBack.map fun c => match c with
        | .commit r => .commit r
        | .discard r _ => .discard r false

/-! ## Routes, the address decision and the arbiter -/

/-- Lookup returns the lowest entry that is valid, has the port and agrees with the address in every bit of
its mask; translation takes each bit from the translate value where the mask is set and from the upstream
address elsewhere, so that the image of the match set is the set of addresses that agree with the translate
value under the mask (R20, R21, R22). -/
def Obligations.LookupAndTranslation : Prop :=
  (∀ (b : Bank) (p : Port) (addr : Addr) (i : RouteId),
    let matching := fun (j : RouteId) =>
      let e := b.entries[j]
      e.valid = true ∧ (match p with | .a => e.portA | .b => e.portB) = true ∧
        ∀ k : Fin 7, e.mask.getLsbD k.val = true → addr.getLsbD k.val = e.matchAddr.getLsbD k.val
    (lookup b p addr = some i ↔ matching i ∧ ∀ j : RouteId, j < i → ¬ matching j) ∧
    (lookup b p addr = none ↔ ∀ j : RouteId, ¬ matching j)) ∧
  ∀ (mask translate addr : Addr),
    (∀ k : Fin 7, (translated mask translate addr).getLsbD k.val =
      if mask.getLsbD k.val then translate.getLsbD k.val else addr.getLsbD k.val) ∧
    ∀ (matchAddr down : Addr),
      (∃ up : Addr, up &&& mask = matchAddr &&& mask ∧ translated mask translate up = down) ↔
        down &&& mask = translate &&& mask

/-- Validation fails an entry exactly for the reasons of R39 and R40: no port; no segment; a fan-out whose
profile allows reads; a translated image that meets 120 to 127; an address 0 in the match set of any but the
exact entry 0, or a non-zero address mapped to 0. The lowest failing entry and its lowest reason are reported
(R39, R40, R41). -/
def Obligations.ValidationFindsLowestFailure : Prop :=
  ∀ (b : Bank),
    let image := fun (e : RouteEntry) (translate : Addr) (bad : Addr → Addr → Prop) =>
      ∃ up : Addr, up &&& e.mask = e.matchAddr &&& e.mask ∧ bad up (translated e.mask translate up)
    let fails := fun (e : RouteEntry) (reason : Nat) => e.valid = true ∧ match reason, e.action with
      | 1, _ => e.portA = false ∧ e.portB = false
      | 2, .forward g _ _ => ∀ n : SegId, segMem g n = false
      | 3, .forward g _ f => (∃ n m : SegId, n ≠ m ∧ segMem g n = true ∧ segMem g m = true) ∧
          (b.profiles[f]).readAllowed = true
      | 4, .forward _ t _ => image e t fun _ down => 120 ≤ down.toNat
      | 5, .forward _ t _ => image e t (fun up down => up ≠ 0 ∧ down = 0) ∨
          (e.matchAddr &&& e.mask = 0 ∧ ¬ (e.mask = 0x7F ∧ e.matchAddr = 0 ∧ t = 0))
      | _, _ => False
    (bankFailure b = none ↔ ∀ (i : RouteId) (k : Nat), ¬ fails b.entries[i] k) ∧
    ∀ (i : RouteId) (reason : Byte), bankFailure b = some (i, reason) ↔
      fails b.entries[i] reason.toNat ∧ (∀ k < reason.toNat, ¬ fails b.entries[i] k) ∧
        ∀ j : RouteId, j < i → ∀ k, ¬ fails b.entries[j] k

/-- The arbiter examines its list oldest first and grants each request whose members are all IDLE and shared
with no older request left waiting: from the empty list nothing; then the request granted, or the list kept;
with two requests the younger is judged after the older, and reserved members keep it waiting (R89, R90). That
the count of bits is 0 from the grant on is the model's reading (notes/assumptions/6). -/
def Obligations.ExaminationGrantsInOrder : Prop :=
  ∀ (s : State) (r r' : Request),
    let ready := fun (u : State) (o : Request) =>
      ∀ n : SegId, segMem o.segments n = true → (u.segment n).state = .idle
    let apart := ∀ n : SegId, ¬ (segMem r.segments n = true ∧ segMem r'.segments n = true)
    let grantOf := fun (o : Request) (u : State) => granted o.port o.segments u
    (s.waitList = [] → examine s = s) ∧
    (s.waitList = [r] → ready s r → examine s = { grantOf r s with waitList := [] }) ∧
    (s.waitList = [r] → ¬ ready s r → examine s = s) ∧
    (s.waitList = [r, r'] → ¬ ready s r → ¬ (ready s r' ∧ apart) → examine s = s) ∧
    (s.waitList = [r, r'] → ¬ ready s r → ready s r' → apart →
      examine s = { grantOf r' s with waitList := [r] }) ∧
    (s.waitList = [r, r'] → ready s r → ready (grantOf r s) r' →
      examine s = { grantOf r' (grantOf r s) with waitList := [] }) ∧
    (s.waitList = [r, r'] → ready s r → ¬ ready (grantOf r s) r' →
      examine s = { grantOf r s with waitList := [r'] })

/-- The management address in effect is settled first, with ACK: held segments and the pin are released, the
route, the policy and the count become absent, no counter changes, and the context is in MGMT_WRITE with an
empty reception or in MGMT_READ with a copy of the response: its status, its length, its data and their check
byte (R66, R67, R148, R149, R152, R153, R185). -/
def Obligations.ManagementAddressAcknowledged : Prop :=
  ∀ (s : State) (p : Port) (dir : Direction), AddressReported s p →
    let addr := (s.record p).effAddr
    let r := s.record p
    let c := s.context p
    let low : BitVec 1 := match dir with | .write => 0 | .read => 1
    let byte : Byte := addr ++ low
    let status : Byte := match r.response.status with
      | .ok => 0x00 | .pending => 0x01 | .none => 0x02 | .checkError => 0x10 | .lengthError => 0x11
      | .unknownCommand => 0x12 | .deniedRights => 0x13 | .badArgument => 0x20 | .busy => 0x21
      | .stale => 0x22 | .invalid => 0x23 | .wrongState => 0x24 | .empty => 0x25 | .aborted => 0x26
    let copy := frameOf ([status, BitVec.ofNat 8 r.response.data.length] ++ r.response.data)
    exec (.address p addr dir) s = .next { s with
      engines := s.engines.set p { s.engine p with bits := 8, shifter := byte, addressNext := false,
                                                   hold := .none, ack := some .ack,
                                                   addressNaked := false }
      contexts := s.contexts.set p
        { c with state := (match dir with | .write => .mgmtWrite | .read => .mgmtRead)
                 direction := some dir, upstream := some addr, route := none, policy := none,
                 pin := none, phaseCount := none, idleTimer := none }
      table := unpinnedTable p s
      segments := releasedSegments p false s
      paths := s.paths.set p (s.path p).toEmpty
      mgmt := s.mgmt.set p (match dir with
        | .write => { r with reception := some ⟨[], 0, false⟩, readCopy := none }
        | .read => { r with reception := none, readCopy := some copy }) }

/-- An address that no entry of the searched bank matches gets NAK: held segments and the pin are released,
the context is IGNORING with the route, the policy and the count absent, the engine passive for the rest of
the phase; no event is raised and no counter changes (R10, R21, R65, R68). -/
def Obligations.UnmatchedAddressIgnored : Prop :=
  ∀ (s : State) (p : Port) (addr : Addr) (dir : Direction), AddressReported s p →
    addr ≠ (s.record p).effAddr →
    lookup (searchedBank p (searching p (takenAddress p addr dir s))) p addr = none →
    let r := s.record p
    let low : BitVec 1 := match dir with | .write => 0 | .read => 1
    let byte : Byte := addr ++ low
    exec (.address p addr dir) s = .next { s with
      engines := s.engines.set p { s.engine p with bits := 8, shifter := byte, addressNext := false,
                                                   hold := .none, ack := some .nak,
                                                   addressNaked := true }
      contexts := s.contexts.set p
        { s.context p with state := .ignoring, direction := some dir, upstream := some addr,
                           route := none, policy := none, pin := none, phaseCount := none,
                           idleTimer := none }
      table := unpinnedTable p s
      segments := releasedSegments p false s
      paths := s.paths.set p (s.path p).toEmpty
      mgmt := s.mgmt.set p { r with reception := none, readCopy := none } }

/-- A selected entry that denies, or whose phase a check of steps 4 to 7 refuses: NAK, IGNORING, everything
held released; DENY_RULE always and the others under the log denials flag of the selected profile are raised
with the route; the hit and the denial are counted while the searched bank is ACTIVE (R23, R26, R29, R34,
R36, R37, R66, R69, R70). -/
def Obligations.AddressRefusals : Prop :=
  ∀ (s : State) (p : Port) (addr : Addr) (dir : Direction) (i : RouteId), AddressReported s p →
    NoRequest s p → addr ≠ (s.record p).effAddr →
    let looked := searching p (takenAddress p addr dir s)
    let bank := searchedBank p looked
    lookup bank p addr = some i →
    let entry := bank.entries[i]
    let result := fun (policy : Option ProfileId) (kind : EventKind) (seg : Option SegId) (log : Bool) =>
      let u := selected p addr dir i policy s
      let v := refusedState p u
      let v := if log then raise ⟨kind, some p, seg, some addr, some i, 0⟩ v else v
      if (u.context p).pin = some u.table.activeGen then deniedState i v else v
    (entry.action = .deny →
      exec (.address p addr dir) s = .next (result none .denyRule none true)) ∧
    ∀ g t f kind seg, entry.action = .forward g t f →
      refusal (s.context p) dir addr i bank g f looked = some (kind, seg) →
      exec (.address p addr dir) s =
        .next (result (some f) kind seg (bank.profiles[f]).logDenials)

/-- An admitted phase of a context that does not keep its segments: what it holds is released first; its claim
is then granted at once where every member is IDLE and no older request shares one, and otherwise waits at the
end of the list with an empty held set; the acknowledge waits in both cases (R34, R36, R70 to R72, R88 to R90,
R94, R96, R100). That the count of bits is 0 from the grant on is the model's reading
(notes/assumptions/6). -/
def Obligations.AdmittedPhaseClaims : Prop :=
  ∀ (s : State) (p : Port) (addr : Addr) (dir : Direction) (i : RouteId) (g : SegSet) (t : Addr)
    (f : ProfileId), AddressReported s p → addr ≠ (s.record p).effAddr →
    let looked := searching p (takenAddress p addr dir s)
    let bank := searchedBank p looked
    let set := s.available g
    lookup bank p addr = some i → (bank.entries[i]).action = .forward g t f →
    refusal (s.context p) dir addr i bank g f looked = none → g ≠ 0 →
    ¬ ((s.context p).state.forwarding = true ∧ ∀ n : SegId, segMem set n = true → s.holds p n = true) →
    let claim := claimOf addr dir bank.entries[i] g t bank.profiles[f]
    let u := admitted p f bank.profiles[f] claim (selected p addr dir i (some f) s)
    let u := withPath p (u.path p).toEmpty { u with segments := releasedSegments p false u }
    let ready := (∀ n : SegId, segMem set n = true → (u.segment n).state = .idle) ∧
      ∀ r ∈ s.waitList, r.segments &&& set = 0
    (ready → exec (.address p addr dir) s = .next (granted p set u)) ∧
    (¬ ready → exec (.address p addr dir) s = .next
      { withContext p { u.context p with state := .waiting } u with
        waitList := s.waitList ++
          [⟨p, set, if claim.aggregation = .any then .drop else .withdraw⟩] })

/-- A repeated start from a forwarding state whose claim set lies within the held set keeps those segments:
the members left out are released, the kept ones begin a new address phase by a repeated start, at which no
bits are taken, with no grant, and no request reaches the arbiter (R2, R72, R94, R100, R129). That the count is
0 already here is the model's reading (notes/assumptions/6). -/
def Obligations.RepeatedStartKeepsSegments : Prop :=
  ∀ (s : State) (p : Port) (addr : Addr) (dir : Direction) (i : RouteId) (g : SegSet) (t : Addr)
    (f : ProfileId), AddressReported s p → addr ≠ (s.record p).effAddr →
    (s.context p).state.forwarding = true →
    let looked := searching p (takenAddress p addr dir s)
    let bank := searchedBank p looked
    lookup bank p addr = some i → (bank.entries[i]).action = .forward g t f →
    refusal (s.context p) dir addr i bank g f looked = none →
    (∀ n : SegId, segMem (s.available g) n = true → s.holds p n = true) →
    let claim := claimOf addr dir bank.entries[i] g t bank.profiles[f]
    let set := s.available g
    let u := admitted p f bank.profiles[f] claim (selected p addr dir i (some f) s)
    exec (.address p addr dir) s = .next { u with
      contexts := u.contexts.set p { u.context p with state := .addressing }
      paths := u.paths.set p
        { u.path p with stage := .address, byte := none, targetSending := none, mirroring := false,
                        wanted := false,
                        outcomes := Vector.ofFn fun n => if segMem set n then some .pending else none }
      segments := Vector.ofFn fun n =>
        let x := s.segment n
        match x.state with
        | .held h =>
          if h.port ≠ p then x
          else if segMem set n then
            { x with state := .held { h with tries := 0, deferred := false, winnerStop := false,
                                             completion := (u.path p).completionOf n,
                                             opening := .repeatedStart },
                     bits := 0 }
          else x.released false ((u.path p).completionOf n)
        | _ => x }

/-! ## Bytes and the forwarding path -/

/-- A write byte in WRITING goes to every held segment with the upstream clock held and the count one more;
at a non-zero limit already reached it gets NAK, LIMITED and LENGTH_WRITE, and no segment is clocked (R105,
R108). -/
def Obligations.WriteByteForwardedOrLimited : Prop :=
  ∀ (s : State) (p : Port) (b : Byte) (c : Claim) (k : Byte), Reports s p →
    (s.engine p).addressNext = false → (s.engine p).addressNaked = false →
    (s.context p).state = .writing →
    (s.path p).stage = .between → (s.path p).claim = some c → (s.context p).phaseCount = some k →
    let e := { s.engine p with bits := 8, shifter := b }
    let x := s.context p
    exec (.writeByte p b) s = .next
      (if c.maxWrite ≠ 0 ∧ k = c.maxWrite then
        raise ⟨.lengthWrite, some p, none, x.upstream, x.route, k⟩
          (withContext p { x with state := .limited } (withEngine p { e with ack := some .nak } s))
       else
        withContext p { x with phaseCount := some (if k = 255 then 255 else k + 1) }
          (withPath p
            { s.path p with stage := .writeByte, byte := some b, targetSending := none,
                            outcomes := Vector.ofFn fun n => if s.holds p n then some .pending else none }
            (withEngine p { e with hold := .write } s)))

/-- The other write bytes: in MGMT_WRITE the dispatcher keeps the first to the eighteenth with ACK, refuses
the whole write of a PENDING port from its first byte, and counts on to 255; in LIMITED, in ABORTED and in
passive mode (IDLE, IGNORING, and after a NAKed address) the byte gets NAK and nothing else changes (R10, R63,
R77, R84, R148). That the line left released in passive mode is written down as NAK is the model's reading
(notes/assumptions/21). -/
def Obligations.WriteByteAnsweredByDevice : Prop :=
  ∀ (s : State) (p : Port) (b : Byte), Reports s p → (s.engine p).addressNext = false →
    let reply := fun (a : Ack) => withEngine p { s.engine p with bits := 8, shifter := b, ack := some a }
    let m := s.record p
    let run := exec (.writeByte p b) s
    (∀ r, (s.context p).state = .mgmtWrite → (s.engine p).addressNaked = false → m.reception = some r →
      let count := if r.count = 255 then 255 else r.count + 1
      let becomes := fun (r' : Reception) (a : Ack) =>
        run = .next (withRecord p { m with reception := some r' } (reply a s))
      (r.count = 0 → m.command.isSome = true → becomes { r with count := 1, refused := true } .nak) ∧
      (r.count = 0 → m.command = none → becomes { r with bytes := r.bytes ++ [b], count := 1 } .ack) ∧
      (0 < r.count → r.count ≤ 255 → r.refused = true → becomes { r with count := count } .nak) ∧
      (0 < r.count → r.count ≤ 17 → r.refused = false →
        becomes { r with bytes := r.bytes ++ [b], count := count } .ack) ∧
      (18 ≤ r.count → r.count ≤ 255 → r.refused = false → becomes { r with count := count } .nak)) ∧
    ((s.context p).state = .limited ∨ (s.context p).state = .aborted ∨
        (s.context p).state = .idle ∨ (s.context p).state = .ignoring ∨
        (s.engine p).addressNaked = true →
      run = .next (reply .nak s))

/-- A wanted read byte: in READING with the target sending, the read segment begins to clock it in with the
upstream clock held; a report that meets the mirrored slot is kept; in MGMT_READ the next byte of the copied
response, and after its last 0xFF, is supplied; in LIMITED and ABORTED 0xFF. In passive mode, which lasts from
a NAKed address to the next condition, and after a controller NAK nothing is supplied (R7, R10, R77, R84, R109,
R110, R153). -/
def Obligations.WantedReadByteSupplied : Prop :=
  ∀ (s : State) (p : Port), Reports s p → (s.engine p).addressNext = false →
    let q := s.path p
    let e := s.engine p
    let m := s.record p
    let supplied := fun (b : Byte) => withEngine p { e with sending := some b, shifter := b }
    let run := exec (.readByteWanted p) s
    (e.readOver = true ∨ e.addressNaked = true ∨ (s.context p).state = .idle ∨
      (s.context p).state = .ignoring → run = .next s) ∧
    (e.readOver = false → e.addressNaked = false →
      ((s.context p).state = .reading → q.stage = .between → q.targetSending = some true →
        run = .next (withPath p { q with stage := .readReceiving, targetSending := none, wanted := false }
          (withEngine p { e with hold := .read } s))) ∧
      ((s.context p).state = .reading → q.stage = .readPresented → q.mirroring = true →
        run = .next (withPath p { q with wanted := true } (withEngine p { e with hold := .read } s))) ∧
      (∀ b rest, (s.context p).state = .mgmtRead → m.readCopy = some (b :: rest) →
        run = .next (supplied b (withRecord p { m with readCopy := some rest } s))) ∧
      ((s.context p).state = .mgmtRead → m.readCopy = some [] → run = .next (supplied 0xFF s)) ∧
      ((s.context p).state = .limited ∨ (s.context p).state = .aborted → run = .next (supplied 0xFF s)))

/-- A byte received from the read segment is sent upstream and counted, with eight bits taken on the segment;
the byte that reaches a non-zero limit is still sent, but the segment gives NAK at once, the context is LIMITED
and LENGTH_READ is raised (R2, R109, R112). That the NAK slot is taken whole with its instruction is the
model's reading (notes/assumptions/6). -/
def Obligations.ReadByteReceivedOrLimited : Prop :=
  ∀ (s : State) (p : Port) (n : SegId) (b : Byte) (c : Claim) (k : Byte), s.resetActive = false →
    s.holds p n = true → (s.path p).stage = .readReceiving → (s.path p).claim = some c →
    (s.context p).phaseCount = some k →
    let k' : Byte := if k = 255 then 255 else k + 1
    let x := { s.context p with phaseCount := some k' }
    let e := { s.engine p with hold := .none, sending := some b, shifter := b }
    exec (.readByteReceived n b) s = .next
      (if c.maxRead ≠ 0 ∧ k' = c.maxRead then
        raise ⟨.lengthRead, some p, none, x.upstream, x.route, c.maxRead⟩
          (withContext p { x with state := .limited } (readEnded p (withEngine p e s)))
       else withContext p x
        (withPath p { s.path p with stage := .readPresented, byte := some b, targetSending := some false }
          (withSegment n { s.segment n with bits := 8 } (withEngine p e s))))

/-- The acknowledge of a transmitted byte: in READING with a byte presented, ACK is mirrored and NAK ends the
read; elsewhere it has no effect on the path. At the end of the mirrored slot the target is sending, and a
report kept meanwhile is acted on (R2, R7, R77, R84, R110, R111). That the NAK slot is taken whole with its
instruction is the model's reading (notes/assumptions/6). -/
def Obligations.AcknowledgesMirrored : Prop :=
  (∀ (s : State) (p : Port) (a : Ack) (b : Byte), Reports s p → (s.engine p).sending = some b →
    let q := s.path p
    let e := s.engine p
    let u := withEngine p { e with bits := 0, sending := none, readOver := e.readOver || a == .nak } s
    exec (.controllerAcknowledge p a) s = .next
      (if (s.context p).state = .reading ∧ q.stage = .readPresented then
        match a with
        | .ack => withPath p { q with mirroring := true } u
        | .nak => readEnded p u
       else u)) ∧
  ∀ (s : State) (p : Port) (n : SegId), s.resetActive = false → s.holds p n = true →
    (s.path p).stage = .readPresented → (s.path p).mirroring = true →
    let q := { s.path p with byte := none, mirroring := false, wanted := false }
    let u := withSegment n { s.segment n with bits := 0 } s
    exec (.acknowledgeSlotDone n) s = .next
      (if (s.path p).wanted then
        withPath p { q with stage := .readReceiving, targetSending := none }
          (withEngine p { s.engine p with hold := .read } u)
       else withPath p { q with stage := .between, targetSending := some true } u)

/-- A segment's address report, wanted while it is PENDING: ACK and NAK come from a segment in control,
EXHAUSTED from a deferred one past its retry limit, FAULT from one that has left HELD. A FAULT aborts the
context at once; while others are PENDING a report is only recorded; the last one forms the outcome: under ANY
one ACK, else every ACK. On ACK the members without ACK are released, the context is WRITING or READING with
its idle timer started; on NAK everything is released, the pin too, and the context is IGNORING. A report that
is not wanted changes nothing, but EXHAUSTED still raises ARB_EXHAUSTED (R2, R73, R101 to R104). Which segment
can make which report, apart from the loss or the fault that brings it, is the model's reading
(notes/assumptions/23). -/
def Obligations.AddressOutcomeAggregated : Prop :=
  ∀ (s : State) (p : Port) (n : SegId) (r : AddrReport), s.resetActive = false →
    let x := s.context p
    let beyond := fun (tries : Nat) => (s.segment n).inUse.retry.toNat < tries
    let exhausted := fun (tries : Nat) => raise
      ⟨.arbExhausted, some p, some n, x.upstream, x.route, BitVec.ofNat 8 tries⟩ s
    let run := exec (.addressOutcome p n r) s
    let stray := (s.path p).stage ≠ .address ∨ (s.path p).outcomes[n] = none
    (r ≠ .exhausted → stray → run = .next s) ∧
    ((s.path p).stage = .address → (∀ o, (s.path p).outcomes[n] = some o → o ≠ .pending) →
      (s.path p).outcomes[n] ≠ none → run = .next s) ∧
    (∀ h, r = .exhausted → stray → (s.segment n).state = .held h → h.port = p → h.deferred = true →
      beyond h.tries → run = .next (exhausted h.tries)) ∧
    (∀ c, r = .exhausted → stray → (s.segment n).state = .closing c → c.deferred = true →
      beyond c.tries → run = .next (exhausted c.tries)) ∧
    (x.state = .addressing → (s.path p).stage = .address → (s.path p).outcomes[n] = some .pending →
      NoRequest s p →
      (match r with
        | .ack | .nak => ∃ h, (s.segment n).state = .held h ∧ h.port = p ∧ h.deferred = false
        | .exhausted => ∃ h, (s.segment n).state = .held h ∧ h.port = p ∧ h.deferred = true ∧
            beyond h.tries
        | .fault => s.holds p n = false) →
      let o : SegOutcome := match r with
        | .ack => .ack | .nak => .nak | .exhausted => .exhausted | .fault => .fault
      let outs := (s.path p).outcomes.set n (some o)
      let s1 := match r, (s.segment n).state with
        | .ack, .held h | .nak, .held h =>
          withSegment n { s.segment n with state := .held { h with completion := .none }, bits := 0 } s
        | .exhausted, .held h => exhausted h.tries
        | _, _ => s
      let s2 := withPath p { s.path p with outcomes := outs } s1
      let some_ := fun (v : SegOutcome) => ∃ m : SegId, outs[m] = some v
      let agg := match (s.path p).claim with | some c => c.aggregation | none => .single
      let ok : Prop := (agg = .any ∧ some_ .ack) ∨ (agg ≠ .any ∧ ¬ some_ .nak ∧ ¬ some_ .exhausted)
      (some_ .fault → run = .next (abortedState p s2)) ∧
      (¬ some_ .fault → some_ .pending → run = .next s2) ∧
      (¬ some_ .fault → ¬ some_ .pending → ok →
        let read := x.direction = some .read
        run = .next { s2 with
          segments := Vector.ofFn fun m =>
            if s2.holds p m ∧ outs[m] ≠ some .ack then
              (s2.segment m).released false ((s2.path p).completionOf m) else s2.segment m
          paths := s2.paths.set p
            { s2.path p with stage := .between, outcomes := Vector.replicate 8 none,
                             targetSending := if read then some true else none }
          contexts := s2.contexts.set p
            { x with state := if read then .reading else .writing, waitTimer := none,
                     idleTimer := some (s.record p).idleLimit }
          engines := s2.engines.set p { s.engine p with hold := .none, ack := some .ack,
                                                        addressNaked := false } }) ∧
      (¬ some_ .fault → ¬ some_ .pending → ¬ ok →
        run = .next { s2 with
          table := unpinnedTable p s2
          segments := releasedSegments p false s2
          paths := s2.paths.set p (s2.path p).toEmpty
          contexts := s2.contexts.set p
            { x with state := .ignoring, waitTimer := none, pin := none }
          engines := s2.engines.set p { s.engine p with hold := .none, ack := some .nak,
                                                        addressNaked := true } }))

/-- A target's acknowledge of the write byte: recorded while others are PENDING; the last one forms the
upstream acknowledge, under ANY from one ACK, else from every one; under ANY with an ACK the members that
gave NAK are released, in every other case all stay held (R2, R106, R107). -/
def Obligations.WriteAcknowledgeAggregated : Prop :=
  ∀ (s : State) (p : Port) (n : SegId) (a : Ack), s.resetActive = false → s.holds p n = true →
    (s.path p).stage = .writeByte → (s.path p).outcomes[n] = some .pending →
    (∀ m : SegId, (s.path p).outcomes[m] ∈ [none, some .pending, some .ack, some .nak]) →
    (∀ m : SegId, s.holds p m = true ↔ (s.path p).outcomes[m] ≠ none) →
    let o : SegOutcome := match a with | .ack => .ack | .nak => .nak
    let q := { s.path p with outcomes := (s.path p).outcomes.set n (some o) }
    let some_ := fun (v : SegOutcome) => ∃ m : SegId, q.outcomes[m] = some v
    let any : Prop := ∃ c ∈ q.claim, c.aggregation = .any
    let ok : Prop := (any ∧ some_ .ack) ∨ (¬ any ∧ ¬ some_ .nak)
    let run := exec (.writeAcknowledge n a) s
    let u := withSegment n { s.segment n with bits := 0 } s
    let done := fun (reply : Ack) => { u with
      segments := Vector.ofFn fun m =>
        if any ∧ some_ .ack ∧ q.outcomes[m] = some .nak then (u.segment m).released false .none
        else u.segment m
      paths := s.paths.set p
        { q with stage := .between, outcomes := Vector.replicate 8 none, byte := none }
      engines := s.engines.set p { s.engine p with hold := .none, ack := some reply } }
    (some_ .pending → run = .next (withPath p q u)) ∧
    (¬ some_ .pending → ok → run = .next (done .ack)) ∧
    (¬ some_ .pending → ¬ ok → run = .next (done .nak))

/-! ## The segment controllers -/

/-- A quiet interval takes an UNSYNCED segment to IDLE under the stored configuration, and the arbiter
examines its list. On a deferred held segment it brings the retry, by a start, at which no bits are taken,
unless EXHAUSTED has been reported (R2, R90, R123, R125, R131). That the line measurements then stand at 0 is
the model's choice (notes/assumptions/4); that the interval is observed in UNSYNCED whenever its row comes
(notes/assumptions/24) and that the retry's start is taken with it (notes/assumptions/6) are its readings. -/
def Obligations.QuietIntervals : Prop :=
  ∀ (s : State) (n : SegId), s.resetActive = false →
    let x := s.segment n
    (x.state = .unsynced →
      exec (.quietIntervalObserved n) s = .next (examine (withSegment n
        { x with state := .idle, quiet := none, inUse := x.stored, lines := ⟨0, 0, 0, 0⟩ } s))) ∧
    ∀ h, x.state = .held h → h.deferred = true → x.quiet.isSome = true →
      exec (.deferredQuietObserved n) s = .next (withSegment n
        (if x.inUse.retry.toNat < h.tries then { x with quiet := none, lines := ⟨0, 0, 0, 0⟩ }
         else { x with quiet := none, lines := ⟨0, 0, 0, 0⟩, bits := 0,
                       state := .held { h with deferred := false, winnerStop := false,
                                               opening := .start } }) s)

/-- An arbitration loss in the start or the address byte counts a loss and a try and defers the segment; past
the retry limit in use it reports EXHAUSTED to the path. In a write byte it raises
ARB_LOST_DATA, sends the segment to FOREIGN and aborts the holder. In a completion of closing it only counts
and defers (R101, R130, R132, R135). -/
def Obligations.ArbitrationLosses : Prop :=
  ∀ (s : State) (n : SegId), s.resetActive = false →
    let x := s.segment n
    let lost := { x with arbLosses := satInc x.arbLosses }
    (∀ h, x.state = .held h → h.deferred = false → (s.path h.port).stage = .address →
      (s.path h.port).outcomes[n] = some .pending →
      let h' := { h with tries := h.tries + 1, deferred := true, winnerStop := false, completion := .none }
      let s1 := withSegment n { lost with quiet := none, state := .held h' } s
      (h.tries + 1 ≤ x.inUse.retry.toNat → exec (.arbitrationLoss n .address) s = .next s1) ∧
      (x.inUse.retry.toNat < h.tries + 1 →
        exec (.arbitrationLoss n .address) s = exec (.addressOutcome h.port n .exhausted) s1)) ∧
    (∀ h, x.state = .held h → h.deferred = false → (s.path h.port).stage = .writeByte →
      (s.path h.port).outcomes[n] = some .pending → (s.context h.port).state.holding = true →
      NoRequest s h.port →
      let c := s.context h.port
      exec (.arbitrationLoss n .data) s = .next (abortedState h.port
        (raise ⟨.arbLostData, some h.port, some n, c.upstream, c.route, c.phaseCount.getD 0⟩
          (withSegment n { lost with state := .foreign, quiet := none, aborts := satInc x.aborts } s)))) ∧
    ∀ (c : ClosingRec) (point : LossPoint), x.state = .closing c → c.deferred = false →
      (c.completion = .finishWrite ∨ ∃ d, c.completion = .finishAddress d) →
      exec (.arbitrationLoss n point) s = .next (withSegment n
        { lost with state := .closing { c with deferred := true, completion := .none } } s)

/-- Starts and stops the device did not drive, by the state of the segment: a start takes UNSYNCED and IDLE to
FOREIGN, a stop takes FOREIGN and UNSYNCED to a quiet observation in UNSYNCED; on a held segment in control each
is a bus error that aborts the holder, but for a start met before the device has driven its own, which is a loss
at the start: the segment stays held, defers and retries; while closing under control each is a bus error that
ends the closing; a deferred held segment follows the winner until, after EXHAUSTED, it waits for its release; a
deferred closing ends at the stop; a start ends a recovery. Every condition clears the bits taken and, but for
an ISOLATED segment, begins the line-low measurements anew (R2, R12 to R14, R91, R125 to R127, R130, R131, R134
to R136, R139). The model's readings: the measurements then stand at 0 (notes/assumptions/4), SEGMENT_ISOLATED
of a pending isolation comes before the arbiter's refusals (notes/assumptions/10), a start during the quiet
observation undoes the winner's stop (notes/assumptions/11), a start taken as a bus error leaves no observation
running (notes/assumptions/24), whether the device has driven its own start is a free value on a held segment
(notes/assumptions/27), and on a closing one a start is the bus error in either case (notes/assumptions/34). -/
def Obligations.ForeignStartsAndStops : Prop :=
  ∀ (s : State) (n : SegId), s.resetActive = false →
    let x0 := s.segment n
    let x := { x0 with bits := 0, lines := ⟨x0.lines.heldInterval, 0, 0, 0⟩ }
    let start := exec (.segmentStartSeen n) s
    let stop := exec (.segmentStopSeen n) s
    let watching := { x with state := .unsynced, quiet := some x.inUse.quiet }
    let error := fun (detail : Byte) =>
      raise ⟨.segmentBusError, none, some n, none, none, detail⟩ s
    (x.state = .unsynced ∨ x.state = .idle →
      start = .next (withSegment n { x with state := .foreign, quiet := none } s)) ∧
    (x.state = .foreign → start = .next (withSegment n x s)) ∧
    (x.state = .unsynced ∨ x.state = .foreign → stop = .next (withSegment n watching s)) ∧
    (x.state = .idle → stop = .next (withSegment n x s)) ∧
    (x.state = .isolated →
      start = .next (withSegment n { x0 with bits := 0 } s) ∧
      stop = .next (withSegment n { x0 with bits := 0 } s)) ∧
    (∀ h, x.state = .held h → h.deferred = true → (h.winnerStop = true → x.quiet.isSome = true) →
      start = .next (withSegment n
        { x with state := .held { h with winnerStop := false }, quiet := none } s) ∧
      stop = .next (withSegment n
        { x with state := .held { h with winnerStop := true }, quiet := some x.inUse.quiet } s)) ∧
    (∀ h, x.state = .held h → h.deferred = true → h.winnerStop = true → x.quiet = none →
      start = .next (withSegment n x s) ∧ stop = .next (withSegment n x s)) ∧
    (∀ h, x.state = .held h → h.deferred = false → (s.context h.port).state.holding = true →
      NoRequest s h.port →
      let c := s.context h.port
      let departs := fun (detail : Byte) (quiet : Option Byte) (u : State) => abortedState h.port
        (raise ⟨.segmentBusError, some h.port, some n, c.upstream, c.route, detail⟩
          (withSegment n { x with state := .unsynced, quiet := quiet, aborts := satInc x.aborts } u))
      let opening := (s.path h.port).stage = .address ∧ (s.path h.port).outcomes[n] = some .pending
      let chosen := { s with freeChoices := s.freeChoices + 1 }
      (¬ opening → start = .next (departs 1 none s)) ∧
      (opening → start = if Config.foreignStartFirst s.freeChoices = true then
        exec (.arbitrationLoss n .address) (withSegment n x chosen) else .next (departs 1 none chosen)) ∧
      stop = .next (departs 2 (some x.inUse.quiet) s)) ∧
    (∀ c, x.state = .closing c → c.deferred = false → c.isolation = none →
      start = .next (withSegment n { x with state := .unsynced, quiet := none } (error 1)) ∧
      stop = .next (withSegment n watching (error 2))) ∧
    (∀ c i, x.state = .closing c → c.deferred = false → c.isolation = some i →
      start = .next (isolatedByCommand n i x (error 1)) ∧
      stop = .next (isolatedByCommand n i x (error 2))) ∧
    (∀ c, x.state = .closing c → c.deferred = true →
      start = .next (withSegment n x s) ∧
      stop = .next (match c.isolation with
        | none => withSegment n watching s
        | some i => isolatedByCommand n i x s)) ∧
    ∀ r, x.state = .recovering r →
      let u := withSegment n { x with state := .foreign, quiet := none, failedAttempts := 0 } s
      start = .next (match r.requestedBy with
        | some p => completed p .ok [0x02] u
        | none => u) ∧
      stop = .next (withSegment n x s)

/-- An IDLE segment with a line found low without a start goes to UNSYNCED, with no quiet observation running.
A line that reads low for the stretch limit in use, in UNSYNCED and FOREIGN, on a deferred held segment and in
deferred closing, raises SEGMENT_FAULT with the detail of the line, counts on the faults counter, and sends the
segment to RECOVERING under the stored configuration or, without auto-recover in use, to ISOLATED with detail
3; a held one counts on its aborts counter too and its holder is aborted; a closing one with isolation pending
is ISOLATED (R12, R16, R126 to R128, R131, R136, R137, R140). The model's readings: the measurement stands at
the limit (notes/assumptions/4), SEGMENT_ISOLATED comes before the arbiter's refusals (notes/assumptions/10),
and a quiet observation begins only where lines can read high (notes/assumptions/24). -/
def Obligations.LineFaults : Prop :=
  ∀ (s : State) (n : SegId) (line : Line), s.resetActive = false →
    let x := s.segment n
    let limit := x.inUse.stretch.toNat
    let detail : Byte := match line with | .clock => 2 | .data => 3
    let l : LineMeasure := match line with
      | .clock => { x.lines with clockLow := limit }
      | .data => if x.state = .unsynced then { x.lines with dataLow := limit }
          else { x.lines with dataLowClockHigh := limit }
    let faulted := { x with faults := satInc x.faults, lines := l }
    let run := exec (.stuckLineFault n line) s
    let s1 := raise ⟨.segmentFault, none, some n, none, none, detail⟩ s
    (x.state = .idle → exec (.lineLowWithoutStart n line) s = .next (withSegment n
      { x with state := .unsynced, quiet := none,
               lines := match line with
                 | .clock => { x.lines with clockLow := 0 }
                 | .data => { x.lines with dataLow := 0, dataLowClockHigh := 0 } } s)) ∧
    (x.state = .unsynced ∨ x.state = .foreign → run = .next (afterFault n none faulted s1)) ∧
    (∀ h, x.state = .held h → h.deferred = true → (s.context h.port).state.holding = true →
      NoRequest s h.port →
      let c := s.context h.port
      run = .next (abortedState h.port (afterFault n (some h.port)
        { faulted with aborts := satInc x.aborts }
        (raise ⟨.segmentFault, some h.port, some n, c.upstream, c.route, detail⟩ s)))) ∧
    ∀ c, x.state = .closing c → c.deferred = true →
      run = .next (match c.isolation with
        | none => afterFault n none faulted s1
        | some i => isolatedByCommand n i faulted s1)

/-- A held interval that reaches the stretch limit on a held segment in control raises STRETCH_LIMIT and
SEGMENT_FAULT with the holder's address and route, counts on the faults and the aborts counter, sends the
segment to RECOVERING or, without auto-recover, to ISOLATED, and aborts the holder with DOWN_FAULT; on a segment
closing under control both events carry no port, only the faults counter counts, and a pending isolation is
taken (R83, R95, R133, R135). That the held interval then stands at the limit is the model's choice
(notes/assumptions/4), and that SEGMENT_ISOLATED comes before the arbiter's refusals another
(notes/assumptions/10). -/
def Obligations.StretchFaultAborts : Prop :=
  ∀ (s : State) (n : SegId), s.resetActive = false →
    let x := s.segment n
    let limit := x.inUse.stretch
    let faulted := { x with faults := satInc x.faults,
                            lines := { x.lines with heldInterval := limit.toNat } }
    let run := exec (.stretchFault n) s
    (∀ h, x.state = .held h → h.deferred = false → (s.context h.port).state.holding = true →
      NoRequest s h.port →
      let c := s.context h.port
      run = .next (abortedState h.port (afterFault n (some h.port)
        { faulted with aborts := satInc x.aborts }
        (raise ⟨.segmentFault, some h.port, some n, c.upstream, c.route, 1⟩
          (raise ⟨.stretchLimit, some h.port, some n, c.upstream, c.route, limit⟩ s))))) ∧
    ∀ c, x.state = .closing c → c.deferred = false →
      let s1 := raise ⟨.segmentFault, none, some n, none, none, 1⟩
        (raise ⟨.stretchLimit, none, some n, none, none, limit⟩ s)
      run = .next (match c.isolation with
        | none => afterFault n none faulted s1
        | some i => isolatedByCommand n i faulted s1)

/-- The stop of a closing under control ends it in IDLE under the stored configuration, with an examination
of the wait list, or in ISOLATED where isolation is pending, with the final response where one is owed. A
recovery attempt that succeeds ends in UNSYNCED with SEGMENT_RECOVERED; the first and the second failure wait
for the next attempt; the third isolates; a requester is answered with the resulting state (R2, R93, R123,
R135, R138, R141, R154). That SEGMENT_ISOLATED comes before the arbiter's refusals (notes/assumptions/10) and
that the line measurements stand at 0 after a recovery (notes/assumptions/4) are the model's choices. -/
def Obligations.ClosingAndRecoveryEnd : Prop :=
  ∀ (s : State) (n : SegId), s.resetActive = false →
    let x := s.segment n
    (∀ c, x.state = .closing c → c.deferred = false → c.isolation = none →
      exec (.closingStopDriven n) s = .next (examine
        (withSegment n { x with state := .idle, quiet := none, inUse := x.stored, bits := 0 } s))) ∧
    (∀ c i, x.state = .closing c → c.deferred = false → c.isolation = some i →
      exec (.closingStopDriven n) s = .next (isolatedByCommand n i { x with bits := 0 } s)) ∧
    ∀ r, x.state = .recovering r →
      let answer := fun (code : Byte) (u : State) => match r.requestedBy with
        | some p => completed p .ok [code] u
        | none => u
      (r.betweenAttempts = true → exec (.recoveryWaitEnd n) s =
        .next (withSegment n { x with state := .recovering { r with betweenAttempts := false } } s)) ∧
      (r.betweenAttempts = false →
        (∀ pulses, pulses ≤ 16 → exec (.recoveryAttemptEnd n (.success pulses)) s =
          .next (answer 0x00 (raise
            ⟨.segmentRecovered, r.requestedBy, some n, none, none, BitVec.ofNat 8 pulses⟩
            (withSegment n { x with state := .unsynced, quiet := some x.inUse.quiet,
                                    recoveries := satInc x.recoveries, failedAttempts := 0,
                                    lines := ⟨0, 0, 0, 0⟩, bits := 0 } s)))) ∧
        (x.failedAttempts < 2 → exec (.recoveryAttemptEnd n .failure) s = .next (withSegment n
          { x with failedAttempts := x.failedAttempts + 1
                   state := .recovering { r with betweenAttempts := true } } s)) ∧
        (x.failedAttempts = 2 → exec (.recoveryAttemptEnd n .failure) s =
          .next (answer 0x06 (isolationMet n
            (raise ⟨.segmentIsolated, r.requestedBy, some n, none, none, 2⟩
              (withSegment n { x with failedAttempts := 3, state := .isolated, quiet := none } s))))))

/-! ## Timers -/

/-- A refill adds the active refill amount up to the active credit max and restarts the timer for the active
period; a stopped timer does not run out. A millisecond adds one to the timestamp counter, which wraps (R33,
R173). -/
def Obligations.RefillAndTimestamp : Prop :=
  ∀ (s : State), s.resetActive = false →
    exec .timestampTick s = .next { s with log := { s.log with timestamp := s.log.timestamp + 1 } } ∧
    ∀ i : ProfileId,
      let c := s.credits[i]
      let f := s.table.active.profiles[i]
      let sum := min (c.count.toNat + f.refillAmount.toNat) f.creditMax.toNat
      let c' : Credit := ⟨BitVec.ofNat 8 (max c.count.toNat sum), some f.refillPeriod⟩
      exec (.refillTimer i) s = .next
        (if c.timer.isSome then { s with credits := s.credits.set i c' } else s)

/-! ## Invariants -/

/-- The log holds at most 32 records with consecutive sequence numbers, and each alert output is driven
exactly while the log holds a record its port's mask selects, after every step (R172, R175, R176, R181). -/
def Obligations.LogOrderAndAlertsKept : Prop :=
  ∀ s t : State, LogOk s → step s = .next t → LogOk t

/-- At least one port has full rights, and every management address and limit is in its range, after every
step (R146, R156, R159). -/
def Obligations.RightsAndSettingsKept : Prop :=
  ∀ s t : State, ManagementOk s → step s = .next t → ManagementOk t

/-- The generation is never 65535, the untouched staging bank equals the active one, and no limited
profile's count exceeds its credit max, after every step (R32, R44, R45). -/
def Obligations.GenerationStagingAndCreditsKept : Prop :=
  ∀ s t : State, TableOk s → step s = .next t → TableOk t

/-- Every address the device drives on a segment lies in 1 to 119, or is 0 with direction write, after every
step (R40, R41). -/
def Obligations.DrivenAddressesKept : Prop :=
  ∀ s t : State, AddressesOk s → step s = .next t → AddressesOk t

/-- Contexts, paths, arbiter, segments and the table controller agree after every step: pins and held sets
go with the context states, the wait list with WAITING, and draining lasts exactly while a retiring pin is
left (R47, R48, R54, R62, R65, R86, R87, R96, R99). -/
def Obligations.AgreementKept : Prop :=
  ∀ s t : State, Agreement s → step s = .next t → Agreement t

/-- No address phase passes more bytes to its segments than the non-zero limit of its profile, after every
step (R27, R108, R112). -/
def Obligations.LengthLimitsKept : Prop :=
  ∀ s t : State, Agreement s → LengthsOk s → step s = .next t → LengthsOk t

/-- Right after reset every invariant holds, for either level of the strap. -/
def Obligations.ResetMeetsInvariants : Prop :=
  ∀ h : Bool, let s := State.atReset h
    LogOk s ∧ ManagementOk s ∧ TableOk s ∧ AddressesOk s ∧ Agreement s ∧ LengthsOk s
end

