-- ==== Sys2Proof/Laws/State.lean ====
section
/-! SUPPORT. One lemma for each field under each update of the state, true by unfolding, so that no proof
unfolds a record update. -/

namespace Sys2Proof.Machine

/-! ### Values of the two ports -/

@[simp] theorem get_set_same {α : Type} (x : PerPort α) (p : Port) (v : α) : (x.set p v).get p = v := by
  cases p <;> rfl
theorem get_set {α : Type} (x : PerPort α) (p q : Port) (v : α) :
    (x.set p v).get q = if q = p then v else x.get q := by cases p <;> cases q <;> rfl
@[simp] theorem get_set_other {α : Type} (x : PerPort α) (p : Port) (v : α) :
    (x.set p v).get (otherPort p) = x.get (otherPort p) := by cases p <;> rfl
@[simp] theorem set_set_same {α : Type} (x : PerPort α) (p : Port) (v w : α) :
    (x.set p v).set p w = x.set p w := by cases p <;> rfl
@[simp] theorem set_get_same {α : Type} (x : PerPort α) (p : Port) : x.set p (x.get p) = x := by
  cases p <;> rfl
@[simp] theorem otherPort_otherPort (p : Port) : otherPort (otherPort p) = p := by cases p <;> rfl
@[simp] theorem otherPort_ne (p : Port) : otherPort p ≠ p := by cases p <;> decide
theorem perPort_ext {α : Type} {x y : PerPort α} (h : ∀ p, x.get p = y.get p) : x = y := by
  cases x; cases y; exact congrArg₂ PerPort.mk (h .a) (h .b)

/-! ### The part an update changes -/

@[simp] theorem modEngine_engine_same (p : Port) (f : Engine → Engine) (s : State) :
    (modEngine p f s).engine p = f (s.engine p) := by cases p <;> rfl
theorem modEngine_engine (p k : Port) (f : Engine → Engine) (s : State) :
    (modEngine p f s).engine k = if k = p then f (s.engine p) else s.engine k := get_set ..
@[simp] theorem modContext_context_same (p : Port) (f : Context → Context) (s : State) :
    (modContext p f s).context p = f (s.context p) := by cases p <;> rfl
theorem modContext_context (p k : Port) (f : Context → Context) (s : State) :
    (modContext p f s).context k = if k = p then f (s.context p) else s.context k := get_set ..
@[simp] theorem modPath_path_same (p : Port) (f : Path → Path) (s : State) :
    (modPath p f s).path p = f (s.path p) := by cases p <;> rfl
theorem modPath_path (p k : Port) (f : Path → Path) (s : State) :
    (modPath p f s).path k = if k = p then f (s.path p) else s.path k := get_set ..
@[simp] theorem modRecord_record_same (p : Port) (f : MgmtRecord → MgmtRecord) (s : State) :
    (modRecord p f s).record p = f (s.record p) := by cases p <;> rfl
theorem modRecord_record (p k : Port) (f : MgmtRecord → MgmtRecord) (s : State) :
    (modRecord p f s).record k = if k = p then f (s.record p) else s.record k := get_set ..
@[simp] theorem modSegment_segment_same (n : SegId) (f : Segment → Segment) (s : State) :
    (modSegment n f s).segment n = f (s.segment n) := by simp [modSegment, State.segment]
theorem modSegment_segment (n k : SegId) (f : Segment → Segment) (s : State) :
    (modSegment n f s).segment k = if k = n then f (s.segment n) else s.segment k := by
  by_cases h : k = n
  · subst h; simp
  · have : (n : Nat) ≠ k := fun e => h (Fin.ext e.symm)
    simp [modSegment, State.segment, h, this]
@[simp] theorem modSegments_segment (f : SegId → Segment → Segment) (k : SegId) (s : State) :
    (modSegments f s).segment k = f k (s.segment k) := by simp [modSegments, State.segment]
@[simp] theorem modTable_table (f : TableControl → TableControl) (s : State) :
    (modTable f s).table = f s.table := rfl

/-! ### modEngine -/

section modEngine

variable (p : Port) (f : Engine → Engine) (s : State)

@[simp] theorem modEngine_pending : (modEngine p f s).pending = s.pending := rfl
@[simp] theorem modEngine_resetActive : (modEngine p f s).resetActive = s.resetActive := rfl
@[simp] theorem modEngine_contexts : (modEngine p f s).contexts = s.contexts := rfl
@[simp] theorem modEngine_paths : (modEngine p f s).paths = s.paths := rfl
@[simp] theorem modEngine_mgmt : (modEngine p f s).mgmt = s.mgmt := rfl
@[simp] theorem modEngine_table : (modEngine p f s).table = s.table := rfl
@[simp] theorem modEngine_credits : (modEngine p f s).credits = s.credits := rfl
@[simp] theorem modEngine_waitList : (modEngine p f s).waitList = s.waitList := rfl
@[simp] theorem modEngine_segments : (modEngine p f s).segments = s.segments := rfl
@[simp] theorem modEngine_log : (modEngine p f s).log = s.log := rfl
@[simp] theorem modEngine_freeChoices : (modEngine p f s).freeChoices = s.freeChoices := rfl
@[simp] theorem modEngine_context (k : Port) : (modEngine p f s).context k = s.context k := rfl
@[simp] theorem modEngine_path (k : Port) : (modEngine p f s).path k = s.path k := rfl
@[simp] theorem modEngine_record (k : Port) : (modEngine p f s).record k = s.record k := rfl
@[simp] theorem modEngine_segment (k : SegId) : (modEngine p f s).segment k = s.segment k := rfl

end modEngine

/-! ### modContext -/

section modContext

variable (p : Port) (f : Context → Context) (s : State)

@[simp] theorem modContext_pending : (modContext p f s).pending = s.pending := rfl
@[simp] theorem modContext_resetActive : (modContext p f s).resetActive = s.resetActive := rfl
@[simp] theorem modContext_engines : (modContext p f s).engines = s.engines := rfl
@[simp] theorem modContext_paths : (modContext p f s).paths = s.paths := rfl
@[simp] theorem modContext_mgmt : (modContext p f s).mgmt = s.mgmt := rfl
@[simp] theorem modContext_table : (modContext p f s).table = s.table := rfl
@[simp] theorem modContext_credits : (modContext p f s).credits = s.credits := rfl
@[simp] theorem modContext_waitList : (modContext p f s).waitList = s.waitList := rfl
@[simp] theorem modContext_segments : (modContext p f s).segments = s.segments := rfl
@[simp] theorem modContext_log : (modContext p f s).log = s.log := rfl
@[simp] theorem modContext_freeChoices : (modContext p f s).freeChoices = s.freeChoices := rfl
@[simp] theorem modContext_engine (k : Port) : (modContext p f s).engine k = s.engine k := rfl
@[simp] theorem modContext_path (k : Port) : (modContext p f s).path k = s.path k := rfl
@[simp] theorem modContext_record (k : Port) : (modContext p f s).record k = s.record k := rfl
@[simp] theorem modContext_segment (k : SegId) : (modContext p f s).segment k = s.segment k := rfl

end modContext

/-! ### modPath -/

section modPath

variable (p : Port) (f : Path → Path) (s : State)

@[simp] theorem modPath_pending : (modPath p f s).pending = s.pending := rfl
@[simp] theorem modPath_resetActive : (modPath p f s).resetActive = s.resetActive := rfl
@[simp] theorem modPath_engines : (modPath p f s).engines = s.engines := rfl
@[simp] theorem modPath_contexts : (modPath p f s).contexts = s.contexts := rfl
@[simp] theorem modPath_mgmt : (modPath p f s).mgmt = s.mgmt := rfl
@[simp] theorem modPath_table : (modPath p f s).table = s.table := rfl
@[simp] theorem modPath_credits : (modPath p f s).credits = s.credits := rfl
@[simp] theorem modPath_waitList : (modPath p f s).waitList = s.waitList := rfl
@[simp] theorem modPath_segments : (modPath p f s).segments = s.segments := rfl
@[simp] theorem modPath_log : (modPath p f s).log = s.log := rfl
@[simp] theorem modPath_freeChoices : (modPath p f s).freeChoices = s.freeChoices := rfl
@[simp] theorem modPath_engine (k : Port) : (modPath p f s).engine k = s.engine k := rfl
@[simp] theorem modPath_context (k : Port) : (modPath p f s).context k = s.context k := rfl
@[simp] theorem modPath_record (k : Port) : (modPath p f s).record k = s.record k := rfl
@[simp] theorem modPath_segment (k : SegId) : (modPath p f s).segment k = s.segment k := rfl

end modPath

/-! ### modRecord -/

section modRecord

variable (p : Port) (f : MgmtRecord → MgmtRecord) (s : State)

@[simp] theorem modRecord_pending : (modRecord p f s).pending = s.pending := rfl
@[simp] theorem modRecord_resetActive : (modRecord p f s).resetActive = s.resetActive := rfl
@[simp] theorem modRecord_engines : (modRecord p f s).engines = s.engines := rfl
@[simp] theorem modRecord_contexts : (modRecord p f s).contexts = s.contexts := rfl
@[simp] theorem modRecord_paths : (modRecord p f s).paths = s.paths := rfl
@[simp] theorem modRecord_table : (modRecord p f s).table = s.table := rfl
@[simp] theorem modRecord_credits : (modRecord p f s).credits = s.credits := rfl
@[simp] theorem modRecord_waitList : (modRecord p f s).waitList = s.waitList := rfl
@[simp] theorem modRecord_segments : (modRecord p f s).segments = s.segments := rfl
@[simp] theorem modRecord_log : (modRecord p f s).log = s.log := rfl
@[simp] theorem modRecord_freeChoices : (modRecord p f s).freeChoices = s.freeChoices := rfl
@[simp] theorem modRecord_engine (k : Port) : (modRecord p f s).engine k = s.engine k := rfl
@[simp] theorem modRecord_context (k : Port) : (modRecord p f s).context k = s.context k := rfl
@[simp] theorem modRecord_path (k : Port) : (modRecord p f s).path k = s.path k := rfl
@[simp] theorem modRecord_segment (k : SegId) : (modRecord p f s).segment k = s.segment k := rfl

end modRecord

/-! ### modSegment -/

section modSegment

variable (n : SegId) (f : Segment → Segment) (s : State)

@[simp] theorem modSegment_pending : (modSegment n f s).pending = s.pending := rfl
@[simp] theorem modSegment_resetActive : (modSegment n f s).resetActive = s.resetActive := rfl
@[simp] theorem modSegment_engines : (modSegment n f s).engines = s.engines := rfl
@[simp] theorem modSegment_contexts : (modSegment n f s).contexts = s.contexts := rfl
@[simp] theorem modSegment_paths : (modSegment n f s).paths = s.paths := rfl
@[simp] theorem modSegment_mgmt : (modSegment n f s).mgmt = s.mgmt := rfl
@[simp] theorem modSegment_table : (modSegment n f s).table = s.table := rfl
@[simp] theorem modSegment_credits : (modSegment n f s).credits = s.credits := rfl
@[simp] theorem modSegment_waitList : (modSegment n f s).waitList = s.waitList := rfl
@[simp] theorem modSegment_log : (modSegment n f s).log = s.log := rfl
@[simp] theorem modSegment_freeChoices : (modSegment n f s).freeChoices = s.freeChoices := rfl
@[simp] theorem modSegment_engine (k : Port) : (modSegment n f s).engine k = s.engine k := rfl
@[simp] theorem modSegment_context (k : Port) : (modSegment n f s).context k = s.context k := rfl
@[simp] theorem modSegment_path (k : Port) : (modSegment n f s).path k = s.path k := rfl
@[simp] theorem modSegment_record (k : Port) : (modSegment n f s).record k = s.record k := rfl

end modSegment

/-! ### modSegments -/

section modSegments

variable (f : SegId → Segment → Segment) (s : State)

@[simp] theorem modSegments_pending : (modSegments f s).pending = s.pending := rfl
@[simp] theorem modSegments_resetActive : (modSegments f s).resetActive = s.resetActive := rfl
@[simp] theorem modSegments_engines : (modSegments f s).engines = s.engines := rfl
@[simp] theorem modSegments_contexts : (modSegments f s).contexts = s.contexts := rfl
@[simp] theorem modSegments_paths : (modSegments f s).paths = s.paths := rfl
@[simp] theorem modSegments_mgmt : (modSegments f s).mgmt = s.mgmt := rfl
@[simp] theorem modSegments_table : (modSegments f s).table = s.table := rfl
@[simp] theorem modSegments_credits : (modSegments f s).credits = s.credits := rfl
@[simp] theorem modSegments_waitList : (modSegments f s).waitList = s.waitList := rfl
@[simp] theorem modSegments_log : (modSegments f s).log = s.log := rfl
@[simp] theorem modSegments_freeChoices : (modSegments f s).freeChoices = s.freeChoices := rfl
@[simp] theorem modSegments_engine (k : Port) : (modSegments f s).engine k = s.engine k := rfl
@[simp] theorem modSegments_context (k : Port) : (modSegments f s).context k = s.context k := rfl
@[simp] theorem modSegments_path (k : Port) : (modSegments f s).path k = s.path k := rfl
@[simp] theorem modSegments_record (k : Port) : (modSegments f s).record k = s.record k := rfl

end modSegments

/-! ### modTable -/

section modTable

variable (f : TableControl → TableControl) (s : State)

@[simp] theorem modTable_pending : (modTable f s).pending = s.pending := rfl
@[simp] theorem modTable_resetActive : (modTable f s).resetActive = s.resetActive := rfl
@[simp] theorem modTable_engines : (modTable f s).engines = s.engines := rfl
@[simp] theorem modTable_contexts : (modTable f s).contexts = s.contexts := rfl
@[simp] theorem modTable_paths : (modTable f s).paths = s.paths := rfl
@[simp] theorem modTable_mgmt : (modTable f s).mgmt = s.mgmt := rfl
@[simp] theorem modTable_credits : (modTable f s).credits = s.credits := rfl
@[simp] theorem modTable_waitList : (modTable f s).waitList = s.waitList := rfl
@[simp] theorem modTable_segments : (modTable f s).segments = s.segments := rfl
@[simp] theorem modTable_log : (modTable f s).log = s.log := rfl
@[simp] theorem modTable_freeChoices : (modTable f s).freeChoices = s.freeChoices := rfl
@[simp] theorem modTable_engine (k : Port) : (modTable f s).engine k = s.engine k := rfl
@[simp] theorem modTable_context (k : Port) : (modTable f s).context k = s.context k := rfl
@[simp] theorem modTable_path (k : Port) : (modTable f s).path k = s.path k := rfl
@[simp] theorem modTable_record (k : Port) : (modTable f s).record k = s.record k := rfl
@[simp] theorem modTable_segment (k : SegId) : (modTable f s).segment k = s.segment k := rfl

end modTable

end Sys2Proof.Machine
end

