-- ==== Sys2Proof/Laws/Parts.lean ====
section
/-! SUPPORT. The parts of the state the statements replace: one lemma for each field, and each `mod` update
as the replacement it is. -/

namespace Sys2Proof.Machine

theorem modEngine_eq (p : Port) (f : Engine → Engine) (s : State) :
    modEngine p f s = withEngine p (f (s.engine p)) s := rfl
theorem modContext_eq (p : Port) (f : Context → Context) (s : State) :
    modContext p f s = withContext p (f (s.context p)) s := rfl
theorem modPath_eq (p : Port) (f : Path → Path) (s : State) :
    modPath p f s = withPath p (f (s.path p)) s := rfl
theorem modRecord_eq (p : Port) (f : MgmtRecord → MgmtRecord) (s : State) :
    modRecord p f s = withRecord p (f (s.record p)) s := rfl
theorem modSegment_eq (n : SegId) (f : Segment → Segment) (s : State) :
    modSegment n f s = withSegment n (f (s.segment n)) s := rfl

@[simp] theorem withEngine_engine_same (p : Port) (e : Engine) (s : State) :
    (withEngine p e s).engine p = e := get_set_same ..
@[simp] theorem withContext_context_same (p : Port) (c : Context) (s : State) :
    (withContext p c s).context p = c := get_set_same ..
@[simp] theorem withPath_path_same (p : Port) (q : Path) (s : State) :
    (withPath p q s).path p = q := get_set_same ..
@[simp] theorem withRecord_record_same (p : Port) (r : MgmtRecord) (s : State) :
    (withRecord p r s).record p = r := get_set_same ..
@[simp] theorem withSegment_segment_same (n : SegId) (x : Segment) (s : State) :
    (withSegment n x s).segment n = x := by simp [withSegment, State.segment]
theorem withSegment_segment (n k : SegId) (x : Segment) (s : State) :
    (withSegment n x s).segment k = if k = n then x else s.segment k :=
  modSegment_segment n k (fun _ => x) s

/-! ### withEngine -/

section withEngine

variable (p : Port) (e : Engine) (s : State)

@[simp] theorem withEngine_pending : (withEngine p e s).pending = s.pending := rfl
@[simp] theorem withEngine_resetActive : (withEngine p e s).resetActive = s.resetActive := rfl
@[simp] theorem withEngine_contexts : (withEngine p e s).contexts = s.contexts := rfl
@[simp] theorem withEngine_paths : (withEngine p e s).paths = s.paths := rfl
@[simp] theorem withEngine_mgmt : (withEngine p e s).mgmt = s.mgmt := rfl
@[simp] theorem withEngine_table : (withEngine p e s).table = s.table := rfl
@[simp] theorem withEngine_credits : (withEngine p e s).credits = s.credits := rfl
@[simp] theorem withEngine_waitList : (withEngine p e s).waitList = s.waitList := rfl
@[simp] theorem withEngine_segments : (withEngine p e s).segments = s.segments := rfl
@[simp] theorem withEngine_log : (withEngine p e s).log = s.log := rfl
@[simp] theorem withEngine_freeChoices : (withEngine p e s).freeChoices = s.freeChoices := rfl
@[simp] theorem withEngine_context (k : Port) : (withEngine p e s).context k = s.context k := rfl
@[simp] theorem withEngine_path (k : Port) : (withEngine p e s).path k = s.path k := rfl
@[simp] theorem withEngine_record (k : Port) : (withEngine p e s).record k = s.record k := rfl
@[simp] theorem withEngine_segment (k : SegId) : (withEngine p e s).segment k = s.segment k := rfl

end withEngine

/-! ### withContext -/

section withContext

variable (p : Port) (c : Context) (s : State)

@[simp] theorem withContext_pending : (withContext p c s).pending = s.pending := rfl
@[simp] theorem withContext_resetActive : (withContext p c s).resetActive = s.resetActive := rfl
@[simp] theorem withContext_engines : (withContext p c s).engines = s.engines := rfl
@[simp] theorem withContext_paths : (withContext p c s).paths = s.paths := rfl
@[simp] theorem withContext_mgmt : (withContext p c s).mgmt = s.mgmt := rfl
@[simp] theorem withContext_table : (withContext p c s).table = s.table := rfl
@[simp] theorem withContext_credits : (withContext p c s).credits = s.credits := rfl
@[simp] theorem withContext_waitList : (withContext p c s).waitList = s.waitList := rfl
@[simp] theorem withContext_segments : (withContext p c s).segments = s.segments := rfl
@[simp] theorem withContext_log : (withContext p c s).log = s.log := rfl
@[simp] theorem withContext_freeChoices : (withContext p c s).freeChoices = s.freeChoices := rfl
@[simp] theorem withContext_engine (k : Port) : (withContext p c s).engine k = s.engine k := rfl
@[simp] theorem withContext_path (k : Port) : (withContext p c s).path k = s.path k := rfl
@[simp] theorem withContext_record (k : Port) : (withContext p c s).record k = s.record k := rfl
@[simp] theorem withContext_segment (k : SegId) : (withContext p c s).segment k = s.segment k := rfl

end withContext

/-! ### withPath -/

section withPath

variable (p : Port) (q : Path) (s : State)

@[simp] theorem withPath_pending : (withPath p q s).pending = s.pending := rfl
@[simp] theorem withPath_resetActive : (withPath p q s).resetActive = s.resetActive := rfl
@[simp] theorem withPath_engines : (withPath p q s).engines = s.engines := rfl
@[simp] theorem withPath_contexts : (withPath p q s).contexts = s.contexts := rfl
@[simp] theorem withPath_mgmt : (withPath p q s).mgmt = s.mgmt := rfl
@[simp] theorem withPath_table : (withPath p q s).table = s.table := rfl
@[simp] theorem withPath_credits : (withPath p q s).credits = s.credits := rfl
@[simp] theorem withPath_waitList : (withPath p q s).waitList = s.waitList := rfl
@[simp] theorem withPath_segments : (withPath p q s).segments = s.segments := rfl
@[simp] theorem withPath_log : (withPath p q s).log = s.log := rfl
@[simp] theorem withPath_freeChoices : (withPath p q s).freeChoices = s.freeChoices := rfl
@[simp] theorem withPath_engine (k : Port) : (withPath p q s).engine k = s.engine k := rfl
@[simp] theorem withPath_context (k : Port) : (withPath p q s).context k = s.context k := rfl
@[simp] theorem withPath_record (k : Port) : (withPath p q s).record k = s.record k := rfl
@[simp] theorem withPath_segment (k : SegId) : (withPath p q s).segment k = s.segment k := rfl

end withPath

/-! ### withRecord -/

section withRecord

variable (p : Port) (r : MgmtRecord) (s : State)

@[simp] theorem withRecord_pending : (withRecord p r s).pending = s.pending := rfl
@[simp] theorem withRecord_resetActive : (withRecord p r s).resetActive = s.resetActive := rfl
@[simp] theorem withRecord_engines : (withRecord p r s).engines = s.engines := rfl
@[simp] theorem withRecord_contexts : (withRecord p r s).contexts = s.contexts := rfl
@[simp] theorem withRecord_paths : (withRecord p r s).paths = s.paths := rfl
@[simp] theorem withRecord_table : (withRecord p r s).table = s.table := rfl
@[simp] theorem withRecord_credits : (withRecord p r s).credits = s.credits := rfl
@[simp] theorem withRecord_waitList : (withRecord p r s).waitList = s.waitList := rfl
@[simp] theorem withRecord_segments : (withRecord p r s).segments = s.segments := rfl
@[simp] theorem withRecord_log : (withRecord p r s).log = s.log := rfl
@[simp] theorem withRecord_freeChoices : (withRecord p r s).freeChoices = s.freeChoices := rfl
@[simp] theorem withRecord_engine (k : Port) : (withRecord p r s).engine k = s.engine k := rfl
@[simp] theorem withRecord_context (k : Port) : (withRecord p r s).context k = s.context k := rfl
@[simp] theorem withRecord_path (k : Port) : (withRecord p r s).path k = s.path k := rfl
@[simp] theorem withRecord_segment (k : SegId) : (withRecord p r s).segment k = s.segment k := rfl

end withRecord

/-! ### withSegment -/

section withSegment

variable (n : SegId) (x : Segment) (s : State)

@[simp] theorem withSegment_pending : (withSegment n x s).pending = s.pending := rfl
@[simp] theorem withSegment_resetActive : (withSegment n x s).resetActive = s.resetActive := rfl
@[simp] theorem withSegment_engines : (withSegment n x s).engines = s.engines := rfl
@[simp] theorem withSegment_contexts : (withSegment n x s).contexts = s.contexts := rfl
@[simp] theorem withSegment_paths : (withSegment n x s).paths = s.paths := rfl
@[simp] theorem withSegment_mgmt : (withSegment n x s).mgmt = s.mgmt := rfl
@[simp] theorem withSegment_table : (withSegment n x s).table = s.table := rfl
@[simp] theorem withSegment_credits : (withSegment n x s).credits = s.credits := rfl
@[simp] theorem withSegment_waitList : (withSegment n x s).waitList = s.waitList := rfl
@[simp] theorem withSegment_log : (withSegment n x s).log = s.log := rfl
@[simp] theorem withSegment_freeChoices : (withSegment n x s).freeChoices = s.freeChoices := rfl
@[simp] theorem withSegment_engine (k : Port) : (withSegment n x s).engine k = s.engine k := rfl
@[simp] theorem withSegment_context (k : Port) : (withSegment n x s).context k = s.context k := rfl
@[simp] theorem withSegment_path (k : Port) : (withSegment n x s).path k = s.path k := rfl
@[simp] theorem withSegment_record (k : Port) : (withSegment n x s).record k = s.record k := rfl

end withSegment

end Sys2Proof.Machine
end

