-- ==== Sys2Proof/Laws/Ops.lean ====
section
/-! SUPPORT. One lemma for each shared operation that says once what it can do, and the frames of the
operations that examine the wait list. -/

namespace Sys2Proof.Machine

/-! ### Outcomes -/

theorem act_next (f : State → State) (s : State) (h : s.resetActive = false) : act f s = .next (f s) := by
  simp [act, h]

theorem act_in_reset (f : State → State) (s : State) (h : s.resetActive = true) : act f s = .next s := by
  simp [act, h]

/-! ### The event log -/

/-- An event taken by the log changes the log only. -/
theorem raise_eq (e : Event) (s : State) : raise e s = { s with log := (raise e s).log } := by
  unfold raise evalAlerts; split <;> rfl

/-- What the log becomes depends on the log and on the alert masks only. -/
theorem raise_log_congr (e : Event) {s t : State} (hl : s.log = t.log) (hm : s.mgmt = t.mgmt) :
    (raise e s).log = (raise e t).log := by
  unfold raise evalAlerts; rw [hl, hm]; split <;> rfl

section raise

variable (e : Event) (s : State)

@[simp] theorem raise_pending : (raise e s).pending = s.pending := by rw [raise_eq]
@[simp] theorem raise_resetActive : (raise e s).resetActive = s.resetActive := by rw [raise_eq]
@[simp] theorem raise_engines : (raise e s).engines = s.engines := by rw [raise_eq]
@[simp] theorem raise_contexts : (raise e s).contexts = s.contexts := by rw [raise_eq]
@[simp] theorem raise_paths : (raise e s).paths = s.paths := by rw [raise_eq]
@[simp] theorem raise_mgmt : (raise e s).mgmt = s.mgmt := by rw [raise_eq]
@[simp] theorem raise_table : (raise e s).table = s.table := by rw [raise_eq]
@[simp] theorem raise_credits : (raise e s).credits = s.credits := by rw [raise_eq]
@[simp] theorem raise_waitList : (raise e s).waitList = s.waitList := by rw [raise_eq]
@[simp] theorem raise_segments : (raise e s).segments = s.segments := by rw [raise_eq]
@[simp] theorem raise_freeChoices : (raise e s).freeChoices = s.freeChoices := by rw [raise_eq]
@[simp] theorem raise_engine (p : Port) : (raise e s).engine p = s.engine p := by simp [State.engine]
@[simp] theorem raise_context (p : Port) : (raise e s).context p = s.context p := by simp [State.context]
@[simp] theorem raise_path (p : Port) : (raise e s).path p = s.path p := by simp [State.path]
@[simp] theorem raise_record (p : Port) : (raise e s).record p = s.record p := by simp [State.record]
@[simp] theorem raise_segment (n : SegId) : (raise e s).segment n = s.segment n := by
  simp [State.segment]

end raise

/-- A log with room stores the event at its tail under the next number, and evaluates both outputs. -/
theorem raise_room (e : Event) (s : State) (h : s.log.records.length < 32) :
    let records := s.log.records ++ [⟨s.log.nextSequence, s.log.timestamp, e⟩]
    (raise e s).log = { s.log with
      records := records, nextSequence := s.log.nextSequence + 1
      alerts := ⟨alertLevel s.mgmt.a.alertMask records, alertLevel s.mgmt.b.alertMask records⟩ } := by
  simp [raise, evalAlerts, Config.logCapacity, h]

/-- A full log counts the event as lost and changes nothing else. -/
theorem raise_full (e : Event) (s : State) (h : 32 ≤ s.log.records.length) :
    (raise e s).log = { s.log with lost := satInc s.log.lost } := by
  simp [raise, Config.logCapacity, Nat.not_lt.mpr h]

/-! ### Responses and engine instructions -/

theorem respond_eq (p : Port) (status : Status) (data : List Byte) (s : State) :
    respond p status data s = withRecord p { s.record p with response := ⟨status, data⟩ } s := rfl

theorem respondPending_eq (p : Port) (c : PendingCommand) (s : State) :
    respondPending p c s =
      withRecord p { s.record p with response := ⟨.pending, []⟩, command := some c } s := rfl

theorem respondFinal_eq (p : Port) (status : Status) (data : List Byte) (s : State) :
    respondFinal p status data s = completed p status data s := rfl

theorem answerAddress_eq (p : Port) (a : Ack) (s : State) :
    answerAddress p a s =
      withEngine p { s.engine p with hold := .none, ack := some a, addressNaked := a == .nak } s := rfl

theorem giveAck_eq (p : Port) (a : Ack) (s : State) :
    giveAck p a s = withEngine p { s.engine p with hold := .none, ack := some a } s := rfl

theorem supply_eq (p : Port) (b : Byte) (s : State) :
    supply p b s = withEngine p { s.engine p with hold := .none, sending := some b, shifter := b } s := rfl

/-- A response placed and the reception discarded: the port's write is answered. -/
theorem dropReception_respond (p : Port) (status : Status) (data : List Byte) (s : State) :
    dropReception p (respond p status data s) = answered p status data s := by
  simp [dropReception, respond_eq, modRecord_eq, answered]
  simp [withRecord]

/-- PENDING placed and the reception discarded. -/
theorem dropReception_respondPending (p : Port) (c : PendingCommand) (s : State) :
    dropReception p (respondPending p c s) = leftPending p c s := by
  simp [dropReception, respondPending_eq, modRecord_eq, leftPending]
  simp [withRecord]

/-! ### Management rows (R150) -/

/-- On a port that takes it, a row executes its command with the rights of the port. -/
theorem command_accepted (p : Port) (o : MgmtOp) (args : List Byte) (s : State) (h : Accepts s p) :
    command p o args s = .next (dropReception p (executeCommand p o args s)) := by
  simp [command, act_next _ _ h.1, h.2]

theorem executeCommand_full (p : Port) (o : MgmtOp) (args : List Byte) (s : State)
    (h : FullRights s p) : executeCommand p o args s = runCommand p o args s := by
  simp [executeCommand, h]

theorem executeCommand_unrestricted (p : Port) (o : MgmtOp) (args : List Byte) (s : State)
    (h : needsFull o p args = false) : executeCommand p o args s = runCommand p o args s := by
  simp [executeCommand, h]

theorem executeCommand_denied (p : Port) (o : MgmtOp) (args : List Byte) (s : State)
    (h : needsFull o p args = true) (hr : (s.record p).rights = .readOnly) :
    executeCommand p o args s = respond p .deniedRights [] s := by
  simp [executeCommand, h, hr]

/-! ### Upstream reports -/

theorem reported_next (p : Port) (f : State → State) (s : State) (h : Reports s p) :
    act (reported p f) s = .next (f s) := by
  simp [act_next _ _ h.1, reported, h.2.1, h.2.2]

/-! ### The wait list -/

/-- What is not changed by a grant: everything but contexts, paths and segments. -/
theorem grant_eq (p : Port) (set : SegSet) (s : State) : grant p set s = granted p set s := by
  simp [grant, granted, modContext, modPath, modSegments, State.context, State.path, State.segment,
    Segment.granted, Segment.noBits, Path.toAddress]

section examine

/-- The parts of the state that an examination leaves as they are. -/
structure Unexamined (s t : State) : Prop where
  pending : t.pending = s.pending
  resetActive : t.resetActive = s.resetActive
  engines : t.engines = s.engines
  mgmt : t.mgmt = s.mgmt
  table : t.table = s.table
  credits : t.credits = s.credits
  log : t.log = s.log
  freeChoices : t.freeChoices = s.freeChoices

theorem Unexamined.refl (s : State) : Unexamined s s := ⟨rfl, rfl, rfl, rfl, rfl, rfl, rfl, rfl⟩

theorem Unexamined.trans {s t u : State} (h : Unexamined s t) (k : Unexamined t u) : Unexamined s u :=
  ⟨k.1.trans h.1, k.2.trans h.2, k.3.trans h.3, k.4.trans h.4, k.5.trans h.5, k.6.trans h.6,
    k.7.trans h.7, k.8.trans h.8⟩

theorem examineFrom_unexamined (older rest : List Request) (s : State) :
    Unexamined s (examineFrom older rest s) := by
  induction rest generalizing older s with
  | nil => exact ⟨rfl, rfl, rfl, rfl, rfl, rfl, rfl, rfl⟩
  | cons r rest ih =>
    unfold examineFrom
    split
    · exact Unexamined.trans (by rw [grant_eq]; exact ⟨rfl, rfl, rfl, rfl, rfl, rfl, rfl, rfl⟩) (ih _ _)
    · exact ih _ _

/-- An examination changes contexts, paths, segments and the wait list only. -/
theorem examine_unexamined (s : State) : Unexamined s (examine s) := examineFrom_unexamined ..

/-- Nothing waiting, nothing granted. -/
theorem examine_nil (s : State) (h : s.waitList = []) : examine s = s := by
  cases s; simp_all [examine, examineFrom]

/-- The examination of the oldest request: granted, or kept as the older request of the rest. -/
theorem examineFrom_cons (older : List Request) (r : Request) (rest : List Request) (s : State) :
    examineFrom older (r :: rest) s =
      if s.grantable older r then examineFrom older rest (granted r.port r.segments s)
      else examineFrom (older ++ [r]) rest s := by
  rw [← grant_eq]; rfl

/-- A withdrawal without a request changes nothing. -/
theorem withdraw_none (p : Port) (s : State) (h : NoRequest s p) : withdraw p s = s := by
  unfold withdraw
  rw [if_neg]
  simpa using h

theorem withdraw_unexamined (p : Port) (s : State) : Unexamined s (withdraw p s) := by
  unfold withdraw
  split
  · have h := examine_unexamined { s with waitList := s.waitList.filter fun r => r.port != p }
    exact ⟨h.1, h.2, h.3, h.4, h.5, h.6, h.7, h.8⟩
  · exact Unexamined.refl s

/-- The isolation of a segment that no waiting request names changes nothing at the arbiter. -/
theorem arbiterIsolation_unnamed (n : SegId) (s : State)
    (h : ∀ r ∈ s.waitList, segMem r.segments n = false) : arbiterIsolation n s = s := by
  have : s.waitList.filter (fun r => segMem r.segments n) = [] := by
    simpa [List.filter_eq_nil_iff] using h
  simp [arbiterIsolation, this]

end examine

/-! ### Pins and releases -/

theorem releasePin_eq (p : Port) (s : State) :
    releasePin p s =
      { s with contexts := s.contexts.set p { s.context p with pin := none }
               table := unpinnedTable p s } := by
  unfold releasePin unpinnedTable
  cases h : (s.context p).pin with
  | none =>
    have : ({ s.context p with pin := none } : Context) = s.context p := by
      rw [← h]
    simp only [this]
    simp [State.context]
  | some g => rfl

theorem releaseSegments_segment (p : Port) (byAbort : Bool) (keep : SegId → Bool) (n : SegId)
    (s : State) :
    (releaseSegments p byAbort keep s).segment n =
      if (s.segment n).heldBy = some p ∧ keep n = false then
        (s.segment n).released byAbort ((s.path p).completionOf n)
      else s.segment n := by
  simp [releaseSegments]

/-- A release changes the segments only. -/
theorem releaseSegments_eq (p : Port) (byAbort : Bool) (keep : SegId → Bool) (s : State) :
    releaseSegments p byAbort keep s =
      { s with segments := (releaseSegments p byAbort keep s).segments } := rfl

theorem releaseAll_eq (p : Port) (byAbort : Bool) (s : State) :
    releaseAll p byAbort s =
      { s with segments := releasedSegments p byAbort s
               paths := s.paths.set p (s.path p).toEmpty } := by
  simp [releaseAll, releaseSegments, modSegments, releasedSegments, modPath, State.path, State.segment]
  rfl

/-! ### Aborts and refusals -/

/-- A cause of abort has no effect in a state it does not reach (R82). -/
theorem abort_unreached (p : Port) (reason : AbortReason) (s : State)
    (h : reason.reaches (s.context p).state = false) : abort p reason s = s := by
  simp [abort, h]

theorem abortHold_eq (p : Port) (s : State) :
    abortHold p s = withEngine p (unheldEngine (s.engine p)) s := by
  unfold abortHold unheldEngine
  cases h : (s.engine p).hold <;> simp [answerAddress_eq, giveAck_eq, supply_eq, Config.fillByte]
  simp [withEngine, State.engine]

/-- What an abort does to a context with no waiting request (R83). -/
theorem abort_eq (p : Port) (reason : AbortReason) (s : State)
    (h : reason.reaches (s.context p).state = true) (hw : NoRequest s p) :
    abort p reason s = abortedState p s := by
  have hw' : NoRequest (releasePin p (modContext p (fun c =>
      { c with state := .aborted, waitTimer := none, idleTimer := none }) s)) p := by
    rw [releasePin_eq]; exact hw
  rw [abort, if_pos h]
  show abortHold p (releaseAll p true (withdraw p _)) = _
  rw [withdraw_none _ _ hw', releasePin_eq, releaseAll_eq, abortHold_eq]
  cases p <;> rfl

/-- CONTEXT RESET leaves alone a context already IDLE or ABORTED (R85). -/
theorem abortForReset_unreached (p : Port) (s : State)
    (h : AbortReason.reset.reaches (s.context p).state = false) : abortForReset p s = s := by
  rw [abortForReset, abort_unreached p .reset s h]
  cases p <;> rfl

/-- The abort of CONTEXT RESET is that of R83 with the byte shifter kept (R4, R85). -/
theorem abortForReset_eq (p : Port) (s : State)
    (h : AbortReason.reset.reaches (s.context p).state = true) (hw : NoRequest s p) :
    abortForReset p s = withEngine p
      { unheldEngine (s.engine p) with shifter := (s.engine p).shifter } (abortedState p s) := by
  rw [abortForReset, abort_eq p .reset s h hw]
  cases p <;> rfl

/-- What a refusal does to a context with no waiting request (R69). -/
theorem refuse_eq (p : Port) (kind : EventKind) (seg : Option SegId) (log : Bool) (s : State)
    (hw : NoRequest s p) :
    refuse p kind seg log s =
      (let u := refusedState p s
       let u := if log then raise ⟨kind, some p, seg, (s.context p).upstream, (s.context p).route, 0⟩ u
         else u
       match (s.context p).route with
       | some i => if (s.context p).pin = some s.table.activeGen then deniedState i u else u
       | none => u) := by
  have hw' : NoRequest (releaseAll p false s) p := by rw [releaseAll_eq]; exact hw
  have hs : answerAddress p .nak (releasePin p (modContext p (fun c =>
      { c with state := .ignoring, traceOwed := false, waitTimer := none, idleTimer := none })
      (releaseAll p false s))) = refusedState p s := by
    simp only [releasePin_eq, releaseAll_eq, answerAddress_eq]
    cases p <;> rfl
  have hc : ((refusedState p s).context p).upstream = (s.context p).upstream ∧
      ((refusedState p s).context p).route = (s.context p).route := by cases p <;> exact ⟨rfl, rfl⟩
  simp only [refuse, withdraw_none _ _ hw', hs, phaseEvent, hc.1, hc.2]
  cases log <;> cases hroute : (s.context p).route <;>
    simp [hc.2, hroute, TableControl.pinActive, countDenial, modTable, deniedState]

/-- The bank the device searches for a context is that of its pinned generation (R46). -/
theorem bankOf_eq (p : Port) (s : State) : s.table.bankOf (s.context p).pin = pinnedBank p s := rfl

/-- The log denials flag is that of the profile the policy numbers in the pinned bank (R31). -/
theorem logsDenials_eq (p : Port) (s : State) :
    s.logsDenials p = (s.context p).policy.any fun i => ((pinnedBank p s).profiles[i]).logDenials := by
  rw [State.logsDenials, State.profileOf, bankOf_eq]
  cases (s.context p).policy <;> rfl

/-- A refusal under the log denials flag of the phase, for a context with no waiting request (R69). -/
theorem refuse_denied (p : Port) (kind : EventKind) (seg : Option SegId) (s : State)
    (hw : NoRequest s p) : refuse p kind seg (s.logsDenials p) s = deniedPhase p kind seg s := by
  rw [refuse_eq _ _ _ _ _ hw, logsDenials_eq]; rfl

/-! ### Isolation at the arbiter -/

/-- No member but n is left in a set exactly where removing n leaves the empty set. -/
theorem left_eq_zero_iff (set : SegSet) (n : SegId) :
    set &&& ~~~(1#8 <<< n.val) = 0 ↔ ∀ m : SegId, segMem set m = true → m = n := by
  constructor
  · intro h m hm
    have := congrArg (fun x : SegSet => x.getLsbD m.val) h
    by_contra hne
    simp [segMem] at hm this
    exact hne (Fin.ext (by have := this hm; omega))
  · intro h
    ext i hi
    have := h ⟨i, hi⟩
    simp [segMem] at this ⊢
    exact Decidable.byContradiction fun k => by
      simp at k
      have hn := congrArg Fin.val (this k.1)
      simp at hn
      omega

/-- One waiting request at the isolation of segment n (R74, R93). -/
theorem isolateRequest_eq (n : SegId) (r : Request) (s : State) :
    isolateRequest n r s = requestIsolated n r s := by
  unfold isolateRequest requestIsolated
  simp only [left_eq_zero_iff]
  split
  · exact refuse_denied r.port .denySegmentDown (some n)
      { s with waitList := s.waitList.filter fun o => o.port != r.port } (by simp [NoRequest])
  · rfl

/-- The arbiter at the isolation of segment n (R93). -/
theorem arbiterIsolation_eq (n : SegId) (s : State) : arbiterIsolation n s = isolationMet n s := by
  unfold arbiterIsolation isolationMet
  simp only [isolateRequest_eq]
  cases s.waitList.filter fun r => segMem r.segments n <;> rfl

/-- A pending isolation takes effect (R135, R141). -/
theorem finishIsolation_eq (n : SegId) (i : IsolationPending) (s : State) :
    finishIsolation n i s = isolatedByCommand n i (s.segment n) s := by
  simp only [finishIsolation, enterIsolated, arbiterIsolation_eq, modSegment_eq]
  rfl

/-- Where a fault sends a segment (R128, R133). -/
theorem faultTransition_eq (n : SegId) (p : Option Port) (s : State) :
    faultTransition n p s = afterFault n p (s.segment n) s := by
  simp only [faultTransition, enterRecovering, enterIsolated, arbiterIsolation_eq, modSegment_eq]
  rfl

/-- Where a fault sends a closing segment (R135, R136). -/
theorem closingFault_eq (n : SegId) (c : ClosingRec) (s : State) :
    closingFault n c s = match c.isolation with
      | none => afterFault n none (s.segment n) s
      | some i => isolatedByCommand n i (s.segment n) s := by
  unfold closingFault
  cases c.isolation with
  | none => exact faultTransition_eq ..
  | some i => exact finishIsolation_eq ..

/-! ### Foreign starts -/

/-- A foreign start met before the device's own is the loss at the start (R91, R130). -/
theorem heldForeignStart_first (n : SegId) (h : HeldRec) (s : State) (ho : s.openingPending n h = true)
    (hc : Config.foreignStartFirst s.freeChoices = true) :
    heldForeignStart n h s = loseAddress n h { s with freeChoices := s.freeChoices + 1 } := by
  simp [heldForeignStart, ho, hc]

/-- A foreign start met after the device's own is the segment bus error (R134). -/
theorem heldForeignStart_later (n : SegId) (h : HeldRec) (s : State) (ho : s.openingPending n h = true)
    (hc : Config.foreignStartFirst s.freeChoices = false) :
    heldForeignStart n h s = heldBusError n h false { s with freeChoices := s.freeChoices + 1 } := by
  simp [heldForeignStart, ho, hc]

/-- Outside an opening no choice is made (R134). -/
theorem heldForeignStart_error (n : SegId) (h : HeldRec) (s : State) (ho : s.openingPending n h = false) :
    heldForeignStart n h s = heldBusError n h false s := by
  simp [heldForeignStart, ho]

/-! ### Read data -/

/-- The end of a read at the path and at its segment (R2, R111 to R113). -/
theorem endRead_eq (p : Port) (s : State) : endRead p s = readEnded p s := by
  simp only [endRead, readEnded, modSegments, modPath, State.segment, State.path, Segment.noBits]
  congr 2

end Sys2Proof.Machine
end

