-- ==== Sys2Proof/Tests/Slice0.lean ====
section
/-! SUPPORT. Tests of one step with results the spec gives, and for every statement with hypotheses a
concrete state and operands that meet them. -/

namespace Sys2Proof.Tests

open Sys2Proof.Machine

/-! ## Helpers -/

/-- The state a command answers, or the state before it. -/
def after (c : Instr) (s : State) : State :=
  match exec c s with
  | .next t => t
  | _ => s

/-- The response of a port. -/
def reply (p : Port) (s : State) : Status × List Byte :=
  ((s.record p).response.status, (s.record p).response.data)

/-- The device out of reset with both ports in full rights. -/
def fresh : State := State.atReset true

/-- The device out of reset with every segment IDLE. -/
def ready : State := { fresh with segments := Vector.replicate 8 { Segment.reset with state := .idle, quiet := none } }

/-- An engine in a transaction. -/
def busyEngine : Engine := { Engine.reset with tracker := .busy }

/-- An engine that has seen a start and no byte since. -/
def startedEngine : Engine := { busyEngine with addressNext := true }

/-- A segment in a state. -/
def seg (x : SegState) : Segment := { Segment.reset with state := x, quiet := none }

/-- Segment 0 in a state, the others IDLE. -/
def seg0 (x : SegState) : State := withSegment 0 (seg x) ready

/-- A held record of port A in control of its bus. -/
def heldA : HeldRec := ⟨.a, false, false, 0, .none, .start⟩

/-- A deferred held record of port A. -/
def deferredA : HeldRec := ⟨.a, true, false, 1, .none, .start⟩

/-- A deferred held record of port A past the default retry limit of 3. -/
def exhaustedA : HeldRec := { deferredA with tries := 4 }

/-- A closing record under control. -/
def closingRec : ClosingRec := ⟨false, 0, .none, none⟩

/-- A claim with limits of two bytes and a stretch budget of 5 ms. -/
def claim (dir : Direction) : Claim := ⟨0x30, dir, .single, 2, 2, 5⟩

/-- The outcome list of segment 0 alone. -/
def only (o : SegOutcome) : Vector (Option SegOutcome) 8 :=
  ⟨#[some o, none, none, none, none, none, none, none], rfl⟩

/-- Port A in a forwarding phase on segment 0, pinned to generation 0, with one byte counted. -/
def phase (c : CtxState) (dir : Direction) (g : Stage) : State :=
  withEngine .a busyEngine
    (withContext .a ⟨c, some dir, some 0x20, some 0, some 1, some 0, some 1, true, some 8, some 40⟩
      (withPath .a { Path.reset with stage := g, claim := some (claim dir), outcomes := only .pending,
                                     targetSending := some true }
        { seg0 (.held heldA) with table := { TableControl.reset with activePins := 1 } }))

/-- Port A waiting behind port B for segment 0. -/
def waitingState : State :=
  withEngine .a { busyEngine with hold := .address }
    (withContext .a ⟨.waiting, some .write, some 0x20, some 0, some 1, some 0, some 0, false, some 8, none⟩
      { seg0 (.held { heldA with port := .b }) with
        table := { TableControl.reset with activePins := 2 }, waitList := [⟨.a, 1, .withdraw⟩] })

/-- Entry 0 forwards 0x20 to segment 0 at 0x30 under profile 1, entry 1 denies 0x21, entry 2 forwards 0x22
to segments 0 and 1 under profile 2. -/
def routes : Bank :=
  { Bank.reset with
    entries := ((Bank.reset.entries.set 0 ⟨true, true, true, 0x20, 0x7F, .forward 1 0x30 1⟩).set 1
      ⟨true, true, true, 0x21, 0x7F, .deny⟩).set 2 ⟨true, true, true, 0x22, 0x7F, .forward 3 0x31 2⟩
    profiles := (Bank.reset.profiles.set 1 { Profile.reset with maxWrite := 2 }).set 2
      { Profile.reset with readAllowed := false, fanOut := .all } }

/-- A state with the routes in its active bank and port A after a start. -/
def started (s : State) : State :=
  withEngine .a startedEngine { s with table := { s.table with bankP := routes, bankQ := routes } }

/-- Port A receiving a management write with these bytes kept. -/
def receiving (bytes : List Byte) : State :=
  withEngine .a busyEngine (withContext .a { Context.idle with state := .mgmtWrite }
    (withRecord .a { fresh.record .a with reception := some ⟨bytes, bytes.length, false⟩ } fresh))

/-- Port A reading its response, of which these bytes are left. -/
def reading (left : List Byte) : State :=
  withEngine .a busyEngine (withContext .a { Context.idle with state := .mgmtRead }
    (withRecord .a { fresh.record .a with readCopy := some left } fresh))

/-- Port A aborted while its address was held: the address got NAK, and the engine is passive. -/
def nakedState : State :=
  withEngine .a { busyEngine with addressNaked := true, bits := 8, ack := some .nak }
    (withContext .a { Context.idle with state := .aborted } ready)

/-- A log record with a kind. -/
def logged (n : BitVec 16) (k : EventKind) : LogRecord := ⟨n, 0, ⟨k, some .a, none, none, none, 0⟩⟩

/-- A log of two records. -/
def withLog : State :=
  { fresh with log := ⟨[logged 0 .denyRule, logged 1 .transaction], 2, 0, 7, ⟨true, true⟩⟩ }

/-- Port A left PENDING. -/
def pendingPort : State := withRecord .a { fresh.record .a with command := some .tableDiscard } fresh

/-- The table controller in a state. -/
def tableIn (x : TableState) (c : Option CopyBack) : State :=
  { fresh with table := { TableControl.reset with state := x, copyBack := c } }

/-- The staging bank holds one entry that forwards to no segment. -/
def badStaging : State :=
  { fresh with table := { TableControl.reset with
    bankQ := { Bank.reset with
      entries := Bank.reset.entries.set 63 ⟨true, true, true, 0x20, 0x7F, .forward 0 0x20 0⟩ } } }

/-! ## Well-formedness -/

theorem test_wf_recovery_of_17_pulses_refused : (Instr.recoveryAttemptEnd 0 (.success 17)).wf = false := by
  decide

theorem test_wf_recovery_of_16_pulses : (Instr.recoveryAttemptEnd 0 (.success 16)).wf = true := by decide

/-! ## One step, with results the spec gives -/

/-- The example frames of R149: IDENTIFY with check byte 0xD9. -/
theorem test_identify_frame : reply .a (after (.managementWrite .a [0x01, 0xD9]) fresh) =
    (.ok, [0x0C, 0xD7, 0x85, 0x02, 0x01, 0x00, 0x01]) := by decide

/-- A wrong check byte (R150, step 2). -/
theorem test_wrong_check_byte :
    reply .a (after (.managementWrite .a [0x01, 0xD8]) fresh) = (.checkError, []) := by decide

/-- An unassigned code with a right check byte (R150, step 3). -/
theorem test_unknown_command :
    reply .a (after (.managementWrite .a (frameOf [0x06])) fresh) = (.unknownCommand, []) := by decide

/-- TABLE COMMIT without its argument bytes (R150, step 4). -/
theorem test_length_error :
    reply .a (after (.managementWrite .a (frameOf [0x14])) fresh) = (.lengthError, []) := by decide

/-- The profile of reset in the layout of R186: flag byte 0x2B, refill 1 every 10 ms, live count 0. -/
theorem test_policy_read_at_reset : reply .a (after (.policyRead .a 0 15) fresh) =
    (.ok, [15, 0x2B, 0, 0, 0, 1, 10, 0, 0]) := by decide

/-- The route entry of reset: not valid, both ports, FORWARD to segment 0 (R19, R186). -/
theorem test_route_read_at_reset :
    reply .a (after (.routeRead .a 1 63) fresh) = (.ok, [63, 0x03, 0, 0, 1, 0, 0]) := by decide

/-- The first commit makes generation 1, and COPYING follows with no pin held (R44, R53, R55). -/
theorem test_commit_makes_generation_1 : reply .a (after (.tableCommit .a 0 0) fresh) = (.ok, [0, 1]) ∧
    (after (.tableCommit .a 0 0) fresh).table.state = .copying := by decide

/-- A commit with another revision than the stored one (R52). -/
theorem test_commit_stale : reply .a (after (.tableCommit .a 1 0) fresh) = (.stale, []) := by decide

/-- The failing entry and its reason (R40, R41, R165). -/
theorem test_commit_invalid : reply .a (after (.tableCommit .a 0 0) badStaging) = (.invalid, [63, 2]) := by
  decide

/-- The port that is read-only at reset (R156, R157). -/
theorem test_read_only_port_denied :
    reply .b (after (.logPop .b) State.reset) = (.deniedRights, []) := by decide

/-- An address of an exact FORWARD entry whose segment is IDLE is claimed at once (R88). -/
theorem test_address_granted :
    let t := after (.address .a 0x20 .write) (started ready)
    (t.context .a).state = .addressing ∧ t.heldSet .a = 1 ∧ (t.segment 0).grants = 1 ∧
      (t.path .a).claim.map (·.address) = some 0x30 ∧ t.table.activePins = 1 ∧ t.table.hits[0] = 1 := by
  decide

/-- A DENY entry: NAK, DENY_RULE, the denial counted, no pin left (R23, R37, R69). -/
theorem test_address_denied :
    let t := after (.address .a 0x21 .write) (started ready)
    (t.context .a).state = .ignoring ∧ (t.engine .a).ack = some .nak ∧ t.table.denials[1] = 1 ∧
      t.table.activePins = 0 ∧ t.log.records.map (·.event.kind) = [.denyRule] := by decide

/-- A read of a fan-out route, whose profile must forbid reads (R26, R40). -/
theorem test_fan_out_read_denied :
    (after (.address .a 0x22 .read) (started ready)).log.records.map (·.event.kind) =
      [.denyDirection] := by decide

/-- The byte that reaches a read limit of 2 is sent, and the phase is LIMITED (R112). -/
theorem test_read_limit :
    let t := after (.readByteReceived 0 0x77) (phase .reading .read .readReceiving)
    (t.context .a).state = .limited ∧ (t.engine .a).sending = some 0x77 ∧
      t.log.records.map (·.event.kind) = [.lengthRead] := by decide

/-- A foreign start on an IDLE segment (R14, R126). -/
theorem test_foreign_start : ((after (.segmentStartSeen 5) ready).segment 5).state = .foreign := by decide

/-- A forced take NAKs the address a context holds, and the engine is passive for the rest of the phase: no
byte is wanted then (R10, R83). -/
theorem test_passive_after_naked_address :
    let t := after (.tableCommit .b 0 1) (withEngine .a { busyEngine with hold := .address }
      (phase .addressing .read .address))
    (t.context .a).state = .aborted ∧ (t.engine .a).ack = some .nak ∧
      after (.readByteWanted .a) t = t := by decide

/-- A start on a segment that waits after EXHAUSTED changes nothing, and its closing ends at the release
(R131, R136). -/
theorem test_closing_ends_after_exhausted_wait :
    let s := withSegment 0 (seg (.held { exhaustedA with winnerStop := true })) (phase .addressing .write .address)
    ((after (.addressWaitLimit .a) (after (.segmentStartSeen 0) s)).segment 0).state = .unsynced := by decide

/-- A kept segment drives a repeated start, a granted one a start (R100). -/
theorem test_opening_of_an_address_phase :
    (after (.address .a 0x20 .write) (started (phase .limited .read .readEnded))).drive 0 =
      .opening .none .repeatedStart 0x30 .write ∧
    (after (.address .a 0x20 .write) (started ready)).drive 0 = .opening .none .start 0x30 .write := by decide

/-- An isolated member is dropped from a request under ANY, which is then granted (R93). -/
theorem test_drop_grants :
    let s := withContext .b { Context.idle with state := .waiting } { seg0 .foreign with waitList := [⟨.b, 3, .drop⟩] }
    let t := after (.segmentIsolate .a 0) s
    t.heldSet .b = 2 ∧ t.waitList = [] := by decide

/-- A third failed attempt isolates the segment with detail 2 (R138, R140). -/
theorem test_third_failure_isolates :
    let s := withSegment 4 { seg (.recovering ⟨none, false⟩) with failedAttempts := 2 } ready
    let t := after (.recoveryAttemptEnd 4 .failure) s
    (t.segment 4).state = .isolated ∧ t.log.records.map (·.event.detail) = [2] := by decide

/-- A refill of 1 stops at credit max 1 (R33). -/
theorem test_refill_capped :
    refilled { Profile.reset with creditMax := 1 } 1 = 1 ∧
      refilled { Profile.reset with creditMax := 1 } 0 = 1 := by decide

/-- The generation after 65534 is 1 (R44). -/
theorem test_generation_wraps : nextGeneration 65534 = 1 ∧ nextGeneration 0 = 1 := by decide

/-- Unused bits of the speed byte are ignored: 0x05 is 400 kHz (R184). -/
theorem test_speed_byte_5 :
    ((after (.segmentConfigure .a 0 5 2 25 3 1) fresh).segment 0).stored.speed = .khz400 := by decide

/-- A foreign start that meets a grant before the device's own start: the segment stays HELD, deferred, with
one try (R91, R130). -/
theorem test_foreign_start_meets_grant (h : Config.foreignStartFirst 0 = true) :
    let s := heldForeignStart 0 heldA (phase .addressing .write .address)
    (s.segment 0).state = .held deferredA ∧ (s.context .a).state = .addressing := by
  rw [heldForeignStart_first 0 heldA _ (by decide) h]; decide

/-- The count of bits is 0 at the start a grant brings (R2). -/
theorem test_grant_clears_bits : (Segment.granted { seg .idle with bits := 8 } .a).bits = 0 := by decide

/-- CONTEXT RESET releases a wanted read byte as 0xFF and keeps the byte shifter (R4, R85). -/
theorem test_context_reset_keeps_shifter :
    let s := withEngine .a { busyEngine with hold := .read, shifter := 0x55 }
      (phase .reading .read .readReceiving)
    (after (.contextReset .b) s).engine .a = { busyEngine with sending := some 0xFF, shifter := 0x55 } := by
  decide

/-- A full log counts the event as lost (R175). -/
theorem test_full_log_counts_lost :
    let s := { fresh with log := { EventLog.reset with records := List.replicate 32 (logged 0 .denyRule) } }
    (raise ⟨.denyRule, none, none, none, none, 0⟩ s).log.lost = 1 ∧
      (raise ⟨.denyRule, none, none, none, none, 0⟩ s).log.records.length = 32 := by decide

/-! ## Witnesses: the machine and its resets -/

theorem test_witness_StepRunsFrontCommand :
    ({ fresh with pending := [.timestampTick, .resetEnd] } : State).pending = .timestampTick :: [.resetEnd] ∧
      fresh.pending = [] := by decide

theorem test_witness_CommandsAnswerAndLeaveQueue :
    (Instr.timestampTick).wf = true ∧ (Instr.recoveryAttemptEnd 0 (.success 17)).wf = false ∧
      ({ fresh with resetActive := true } : State).resetActive = true ∧ Instr.timestampTick ≠ .resetEnd ∧
      (∀ h, Instr.timestampTick ≠ .powerOn h) ∧ (∀ h, Instr.timestampTick ≠ .rstAssert h) := by decide

theorem test_witness_ResetPlacesAndReleasesEveryBlock :
    ({ fresh with resetActive := true } : State).resetActive = true := by decide

/-! ## Witnesses: the upstream engine and the phase boundaries -/

theorem test_witness_StartAndByteComplete :
    (fresh.resetActive = false ∧ (fresh.engine .a).tracker = .idle) ∧
      Reports (phase .writing .write .between) .a := by decide

theorem test_witness_RepeatedStartClosesPhase :
    Reports (phase .reading .read .readPresented) .a ∧
      ((phase .reading .read .readPresented).context .a).state ≠ .mgmtWrite := by decide

theorem test_witness_StopEndsTransaction :
    Reports (phase .limited .write .between) .a ∧
      ((phase .limited .write .between).context .a).state ≠ .mgmtWrite := by decide

theorem test_witness_ReleaseOfSegment :
    ((seg (.held heldA)).state = .held heldA ∧ heldA.deferred = false) ∧
    ((seg (.held deferredA)).state = .held deferredA ∧ deferredA.deferred = true ∧
      deferredA.winnerStop = false) ∧
    ((seg (.held { deferredA with winnerStop := true })).state = .held { deferredA with winnerStop := true } ∧
      deferredA.deferred = true) ∧
    ∀ h, (seg .idle).state ≠ .held h := by
  refine ⟨by decide, by decide, by decide, ?_⟩
  intro h k; cases k

/-- Every stage with a claim on record, the outcomes an address phase can hold, and the segment states. -/
theorem test_witness_ReleaseOfSegment_stages :
    (∀ g ∈ [Stage.empty, .address, .between, .writeByte, .readReceiving, .readPresented, .readEnded],
      ((phase .writing .write g).path .a).stage = g ∧
      ((phase .writing .write g).path .a).claim = some (claim .write) ∧
      ((phase .writing .write g).segment 0).state = .held heldA ∧ heldA.deferred = false) ∧
    (∀ o ∈ [SegOutcome.pending, .ack, .nak, .exhausted, .fault], (only o)[(0 : SegId)] = some o) ∧
    (withPath .a { (phase .writing .write .writeByte).path .a with byte := some 7 }
      (phase .writing .write .writeByte)).drive 0 = .byteOut 7 ∧
    ((seg0 (.closing closingRec)).segment 0).state = .closing closingRec ∧
    ((seg0 (.recovering ⟨none, true⟩)).segment 0).state = .recovering ⟨none, true⟩ ∧
    ((seg0 (.held deferredA)).segment 0).state = .held deferredA := by decide

theorem test_witness_BusErrorByState :
    (Reports (phase .writing .write .between) .a ∧ NoRequest (phase .writing .write .between) .a) ∧
    (Reports (receiving []) .a ∧ NoRequest (receiving []) .a ∧
      ((receiving []).record .a).reception.isSome = true) := by decide

theorem test_witness_WaitLimitRefuses :
    ((phase .addressing .write .address).resetActive = false ∧
      ((phase .addressing .write .address).context .a).waitTimer.isSome = true ∧
      ((phase .addressing .write .address).context .a).state = .addressing ∧
      NoRequest (phase .addressing .write .address) .a) ∧
    (waitingState.resetActive = false ∧ (waitingState.context .a).waitTimer.isSome = true ∧
      (waitingState.context .a).state = .waiting ∧ (∃ r ∈ waitingState.waitList, r.port = .a) ∧
      ∀ n, waitingState.holds .a n = false) := by decide

theorem test_witness_IdleLimitAndBudgetAbort :
    let s := phase .writing .write .between
    (s.resetActive = false ∧ NoRequest s .a ∧ (s.context .a).state.forwarding = true ∧
      (s.context .a).idleTimer.isSome = true ∧ (s.engine .a).hold = .none) ∧
    (s.holds .a 0 = true ∧ (s.context .a).state.holding = true ∧
      (s.path .a).claim = some (claim .write) ∧ (claim .write).budget ≠ 0) := by decide

/-! ## Witnesses: management writes -/

theorem test_witness_ManagementWriteChecked :
    fresh.resetActive = false ∧ pendingPort.resetActive = false ∧ (pendingPort.record .a).command.isSome = true := by
  decide

/-- A write refused, one without a byte, one of a single byte, one of 19 bytes, and one of 18, the most that
are kept. -/
theorem test_witness_WriteIsExecutedAtItsEnd :
    let s := fun (r : Reception) =>
      withRecord .a { fresh.record .a with reception := some r } (receiving [])
    let kept : Reception := ⟨List.replicate 18 0, 18, false⟩
    (∀ r ∈ [⟨[], 5, true⟩, ⟨[], 0, false⟩, ⟨[1], 1, false⟩, ⟨List.replicate 18 0, 19, false⟩, kept],
      Reports (s r) .a ∧ ((s r).context .a).state = .mgmtWrite ∧ ((s r).path .a).stage ≠ .readPresented ∧
      ((s r).record .a).reception = some r) ∧
    kept.bytes.length = kept.count ∧ ((s kept).record .a).command = none ∧
    ∃ u, exec (.managementWrite .a kept.bytes) (s kept) = .next u :=
  ⟨by decide, by decide, by decide, _, rfl⟩

theorem test_witness_RowsAreTheirFrames :
    fresh.resetActive = false ∧ (fresh.record .b).command = none := by decide

theorem test_witness_IdentifyReports : Accepts fresh .a := by decide

theorem test_witness_PortStatusReports : Accepts fresh .b ∧ (2 : Byte) ≠ 0 ∧ (2 : Byte) ≠ 1 := by decide

/-- The least and the greatest management address. -/
theorem test_witness_PortSettingsAndRights :
    Accepts fresh .a ∧ FullRights fresh .a ∧ 1 ≤ (1 : Byte).toNat ∧ (119 : Byte).toNat ≤ 119 ∧
      (1 : Byte) ≠ 0 := by decide

theorem test_witness_ReadOnlyPortIsDenied :
    Accepts State.reset .b ∧ (State.reset.record .b).rights = .readOnly ∧ (0 : Byte) ≠ 1 := by decide

/-- The least value past each range, on a port with full rights and on one without. -/
theorem test_witness_ArgumentsOutOfRangeRefused :
    Accepts State.reset .b ∧ Accepts fresh .a ∧ FullRights fresh .a ∧ 1 < (2 : Byte).toNat ∧
      119 < (120 : Byte).toNat ∧ 63 < (64 : Byte).toNat ∧ 127 < (128 : Byte).toNat ∧
      15 < (16 : Byte).toNat ∧ 7 < (8 : Byte).toNat ∧ (3 : Byte) &&& 3 = 3 ∧ 50 < (51 : Byte).toNat := by
  decide

/-! ## Witnesses: the table controller -/

/-- The greatest 7-bit field, and the least amount and period. -/
theorem test_witness_LoadsWriteStaging :
    Accepts fresh .a ∧ FullRights fresh .a ∧ (127 : Byte).toNat < 128 ∧ (1 : Byte) ≠ 0 := by decide

theorem test_witness_TableReadsReport : Accepts fresh .a := by decide

theorem test_witness_CommitTakenOrRefused :
    (Accepts fresh .a ∧ FullRights fresh .a ∧ 1 < (2 : Byte).toNat) ∧
    (Accepts (tableIn .copying none) .a ∧ FullRights (tableIn .copying none) .a ∧ (1 : Byte).toNat ≤ 1 ∧
      (tableIn .copying none).table.state ≠ .opened) ∧
    (fresh.table.state = .opened ∧ (1 : BitVec 16) ≠ fresh.table.revision) ∧
    (Accepts badStaging .a ∧ FullRights badStaging .a ∧ badStaging.table.state = .opened ∧
      0 = badStaging.table.revision ∧ bankFailure badStaging.table.other = some (63, 2)) ∧
    (fresh.table.state = .opened ∧ 0 = fresh.table.revision ∧ bankFailure fresh.table.other = none) := by
  decide

/-- The blocks of the state agree, for a state without a request in the wait list. -/
theorem agreement_of {s : State} (hw : s.waitList = [])
    (hp : OnPorts fun p => (s.context p).pin.isSome = (s.context p).state.pinned ∧
      (∀ n, s.holds p n = true → (s.context p).state.holding = true) ∧
      (s.context p).state ≠ .waiting ∧ stageAgrees (s.context p).state (s.path p).stage = true ∧
      ((s.context p).state = .addressing → (s.engine p).hold = .address) ∧
      ((s.context p).pin = none ∨ (s.context p).pin = some s.table.activeGen) ∧
      (s.engine p).addressNaked = false)
    (hr : ∀ p n, s.holds p n = true →
      ∃ i ∈ (s.context p).route, routeHas (s.table.bankOf (s.context p).pin).entries[i] n)
    (ht : s.table.activePins = pinCount s s.table.activeGen ∧ s.table.retiringGen = none ∧
      s.table.state ≠ .draining ∧ s.table.retiringPins = 0) : Agreement s := by
  have port : ∀ p, (s.context p).pin.isSome = (s.context p).state.pinned ∧
      (∀ n, s.holds p n = true → (s.context p).state.holding = true) ∧
      (s.context p).state ≠ .waiting ∧ stageAgrees (s.context p).state (s.path p).stage = true ∧
      ((s.context p).state = .addressing → (s.engine p).hold = .address) ∧
      ((s.context p).pin = none ∨ (s.context p).pin = some s.table.activeGen) ∧
      (s.engine p).addressNaked = false → PortAgrees s p := by
    rintro p ⟨h1, h2, h3, h4, h5, h6, h7⟩
    refine ⟨h1, h2, by simp [hw, h3], h4, fun h => h.elim (fun k => absurd k h3) h5,
      fun h => absurd (h7.symm.trans h) (by decide), fun g hg => ?_,
      fun n h => hr p n (by simpa [hw] using h)⟩
    rcases h6 with h6 | h6 <;> rw [h6] at hg
    · cases hg
    · exact .inl (Option.some.inj hg).symm
  exact ⟨⟨port _ hp.1, port _ hp.2⟩, ⟨ht.1, by rw [ht.2.1]; exact ht.2.2⟩⟩

/-- Segment 0 belongs to entry 0 of the active bank, the one that admitted the phase. -/
theorem phase_route (p : Port) (n : SegId) (h : (phase .writing .write .between).holds p n = true) :
    ∃ i ∈ ((phase .writing .write .between).context p).route,
      routeHas ((phase .writing .write .between).table.bankOf
        ((phase .writing .write .between).context p).pin).entries[i] n := by
  have hn : ∀ p n, (phase .writing .write .between).holds p n = true → p = .a ∧ n = 0 := by
    intro p; cases p <;> decide
  obtain ⟨rfl, rfl⟩ := hn p n h
  exact ⟨0, rfl, rfl⟩

/-- A forwarding phase of port A agrees. -/
theorem test_phase_agrees : Agreement (phase .writing .write .between) :=
  agreement_of (by decide) (by decide) phase_route (by decide)

/-- The same phase with the upstream clock held for a write acknowledge and a full log. -/
def heldPhase : State :=
  withEngine .a { busyEngine with hold := .write }
    { phase .writing .write .between with
      log := { EventLog.reset with records := List.replicate 32 (logged 0 .denyRule) } }

theorem test_heldPhase_agrees : Agreement heldPhase :=
  agreement_of (by decide) (by decide) phase_route (by decide)

/-- A log with room and a full one, a free upstream clock and a held one. -/
theorem test_witness_ForcedCommitAborts :
    (∀ s ∈ [phase .writing .write .between, heldPhase], Accepts s .b ∧ FullRights s .b ∧
      s.table.state = .opened ∧ bankFailure s.table.other = none ∧ Agreement s ∧
      (s.context .a).pin.isSome = true ∧ (s.context .a).state ≠ .waiting) ∧
    (phase .writing .write .between).log.records.length < 32 ∧ ¬ heldPhase.log.records.length < 32 := by
  refine ⟨?_, by decide, by decide⟩
  simp only [List.forall_mem_cons]
  exact ⟨⟨by decide, by decide, by decide, by decide, test_phase_agrees, by decide, by decide⟩,
    ⟨by decide, by decide, by decide, by decide, test_heldPhase_agrees, by decide, by decide⟩, by simp⟩

theorem test_witness_DiscardAndCopyBack :
    (Accepts fresh .a ∧ FullRights fresh .a) ∧
    ((tableIn .copying (some (.commit .a))).resetActive = false ∧
      (tableIn .copying (some (.commit .a))).table.state = .copying) := by decide

/-! ## Witnesses: segment and log commands -/

/-- The greatest quiet interval and retry limit, the least stretch limit, and a speed byte with unused bits. -/
theorem test_witness_SegmentStatusAndConfigure :
    Accepts fresh .a ∧ FullRights fresh .a ∧ (0xFD : Byte) &&& 3 = 1 ∧ 1 ≤ (50 : Byte).toNat ∧ (50 : Byte).toNat ≤ 50 ∧
      (1 : Byte) ≠ 0 ∧ (7 : Byte).toNat ≤ 7 := by decide

/-- Each state, and a request that waits for the segment: withdrawn, left with another member, or left with
none. -/
theorem test_witness_SegmentIsolateByState :
    (Accepts ready .a ∧ FullRights ready .a ∧ (ready.segment 7).state = .idle) ∧
    (∀ r ∈ [(⟨.b, 3, .withdraw⟩ : Request), ⟨.b, 3, .drop⟩, ⟨.b, 1, .drop⟩],
      let s := { seg0 .foreign with waitList := [r] }
      Accepts s .a ∧ FullRights s .a ∧ (s.segment 0).state = .foreign ∧ s.waitList = [r] ∧
      segMem r.segments 0 = true) ∧
    (segMem 3 1 = true ∧ ∀ m : SegId, m ≠ 0 → segMem 1 m = false) ∧
    (Accepts (seg0 (.recovering ⟨some .b, false⟩)) .a ∧ FullRights (seg0 (.recovering ⟨some .b, false⟩)) .a ∧
      ((seg0 (.recovering ⟨some .b, false⟩)).segment 0).state = .recovering ⟨some .b, false⟩) ∧
    (((seg0 (.closing closingRec)).segment 0).state = .closing closingRec ∧ closingRec.isolation = none) ∧
    ((seg0 (.closing { closingRec with isolation := some ⟨.b, true⟩ })).segment 0).state =
      .closing { closingRec with isolation := some ⟨.b, true⟩ } ∧
    ((seg0 .isolated).segment 0).state = .isolated := by decide

/-- A segment in control, and a deferred one whose winner's stop has been seen, which ends its closing at the
release. -/
theorem test_witness_SegmentIsolateOfHeldAborts :
    let s := phase .writing .write .between
    let h := { deferredA with winnerStop := true }
    let d := withSegment 0 (seg (.held h)) (phase .addressing .write .address)
    (Accepts s .b ∧ FullRights s .b ∧ (s.segment 0).state = .held heldA ∧ heldA.port = .a ∧
      (s.context .a).state.holding = true ∧ NoRequest s .a) ∧
    (Accepts d .b ∧ FullRights d .b ∧ (d.segment 0).state = .held h ∧ h.port = .a ∧
      (d.context .a).state.holding = true ∧ NoRequest d .a ∧
      ((abortedState .a d).segment 0).state = .unsynced) := by decide

theorem test_witness_SegmentRestoreAndRecover :
    Accepts (seg0 .isolated) .a ∧ FullRights (seg0 .isolated) .a := by decide

/-- A context that is aborted with its clock held, beside the issuing one, which is IDLE. -/
theorem test_witness_ContextResetClears :
    Accepts heldPhase .b ∧ FullRights heldPhase .b ∧ Agreement heldPhase ∧
      (heldPhase.context .a).state = .writing ∧ (heldPhase.engine .a).hold = .write ∧
      (heldPhase.context .b).state = .idle ∧ (heldPhase.segment 0).state = .held heldA :=
  ⟨by decide, by decide, test_heldPhase_agrees, by decide, by decide, by decide, by decide⟩

theorem test_witness_LogPeekAndPop : Accepts withLog .a ∧ FullRights withLog .a := by decide

/-! ## Witnesses: the address decision and the arbiter -/

theorem test_witness_ExaminationGrantsInOrder :
    let r : Request := ⟨.a, 1, .withdraw⟩
    let r' : Request := ⟨.b, 1, .withdraw⟩
    let r2 : Request := ⟨.b, 2, .withdraw⟩
    let all := fun (u : State) (o : Request) =>
      ∀ n : SegId, segMem o.segments n = true → (u.segment n).state = .idle
    let apart := fun (o o' : Request) => ∀ n : SegId, ¬ (segMem o.segments n = true ∧ segMem o'.segments n = true)
    (all ready r ∧ ¬ all (seg0 .foreign) r) ∧
    (¬ all (seg0 .foreign) r ∧ ¬ (all (seg0 .foreign) r' ∧ apart r r')) ∧
    (¬ all (seg0 .foreign) r ∧ all (seg0 .foreign) r2 ∧ apart r r2) ∧
    all (granted .a 1 ready) r2 ∧ ¬ all (granted .a 1 ready) r' := by decide

theorem test_witness_ManagementAddressAcknowledged : AddressReported (started ready) .a := by decide

theorem test_witness_UnmatchedAddressIgnored :
    let s := started ready
    AddressReported s .a ∧ (0x23 : Addr) ≠ (s.record .a).effAddr ∧
      lookup (searchedBank .a (searching .a (takenAddress .a 0x23 .write s))) .a 0x23 = none := by decide

theorem test_witness_AddressRefusals :
    let s := started (seg0 .isolated)
    let looked := fun (a : Addr) => searching .a (takenAddress .a a .write s)
    (AddressReported s .a ∧ NoRequest s .a ∧ (0x21 : Addr) ≠ (s.record .a).effAddr ∧
      lookup (searchedBank .a (looked 0x21)) .a 0x21 = some 1 ∧
      ((searchedBank .a (looked 0x21)).entries[(1 : RouteId)]).action = .deny) ∧
    (lookup (searchedBank .a (looked 0x20)) .a 0x20 = some 0 ∧
      ((searchedBank .a (looked 0x20)).entries[(0 : RouteId)]).action = .forward 1 0x30 1 ∧
      refusal (s.context .a) .write 0x20 0 (searchedBank .a (looked 0x20)) 1 1 (looked 0x20) =
        some (.denySegmentDown, some 0)) := by decide

/-- The claim granted at once, the claim that waits for a foreign segment, and the claim of a forwarding
context for more than it holds. -/
theorem test_witness_AdmittedPhaseClaims :
    let admits := fun (s : State) (addr : Addr) (i : RouteId) (g : SegSet) (t : Addr) (f : ProfileId) =>
      let looked := searching .a (takenAddress .a addr .write s)
      let bank := searchedBank .a looked
      AddressReported s .a ∧ addr ≠ (s.record .a).effAddr ∧
      lookup bank .a addr = some i ∧ (bank.entries[i]).action = .forward g t f ∧
      refusal (s.context .a) .write addr i bank g f looked = none ∧ g ≠ 0 ∧
      ¬ ((s.context .a).state.forwarding = true ∧
        ∀ n : SegId, segMem (s.available g) n = true → s.holds .a n = true)
    let holding := started (phase .writing .write .between)
    (admits (started ready) 0x20 0 1 0x30 1 ∧
      ∀ n : SegId, segMem ((started ready).available 1) n = true → ((started ready).segment n).state = .idle) ∧
    (admits (started (seg0 .foreign)) 0x20 0 1 0x30 1 ∧
      ¬ ∀ n : SegId, segMem ((started (seg0 .foreign)).available 1) n = true →
        ((started (seg0 .foreign)).segment n).state = .idle) ∧
    (admits holding 0x22 2 3 0x31 2 ∧ (holding.context .a).state.forwarding = true ∧
      holding.holds .a 0 = true) := by decide

theorem test_witness_RepeatedStartKeepsSegments :
    let s := started (phase .writing .write .between)
    let looked := searching .a (takenAddress .a 0x20 .read s)
    let bank := searchedBank .a looked
    AddressReported s .a ∧ (0x20 : Addr) ≠ (s.record .a).effAddr ∧
      (s.context .a).state.forwarding = true ∧ lookup bank .a 0x20 = some 0 ∧
      (bank.entries[(0 : RouteId)]).action = .forward 1 0x30 1 ∧
      refusal (s.context .a) .read 0x20 0 bank 1 1 looked = none ∧
      ∀ n : SegId, segMem (s.available 1) n = true → s.holds .a n = true := by decide

/-! ## Witnesses: bytes and the forwarding path -/

/-- The byte below the limit of 2, and the byte at the limit. -/
theorem test_witness_WriteByteForwardedOrLimited :
    let s := phase .writing .write .between
    let s2 := withContext .a { s.context .a with phaseCount := some 2 } s
    (Reports s .a ∧ (s.engine .a).addressNext = false ∧ (s.engine .a).addressNaked = false ∧
      (s.context .a).state = .writing ∧
      (s.path .a).stage = .between ∧ (s.path .a).claim = some (claim .write) ∧
      (s.context .a).phaseCount = some 1) ∧
    (Reports s2 .a ∧ (s2.context .a).phaseCount = some (claim .write).maxWrite) := by decide

/-- The first byte of a PENDING port and of another, the counts 17, 18 and 255, and a passive engine. -/
theorem test_witness_WriteByteAnsweredByDevice :
    let s := fun (count : Nat) (refused : Bool) (c : Option PendingCommand) =>
      withRecord .a { fresh.record .a with reception := some ⟨[], count, refused⟩, command := c } (receiving [])
    (∀ count ∈ [0, 17, 18, 255],
      Reports (s count false none) .a ∧ ((s count false none).engine .a).addressNext = false ∧
      ((s count false none).engine .a).addressNaked = false ∧
      ((s count false none).context .a).state = .mgmtWrite ∧
      ((s count false none).record .a).reception = some ⟨[], count, false⟩) ∧
    ((s 0 false (some .tableDiscard)).record .a).command.isSome = true ∧
    ((s 255 true (some .tableDiscard)).record .a).reception = some ⟨[], 255, true⟩ ∧
    (Reports (phase .limited .write .between) .a ∧
      ((phase .limited .write .between).engine .a).addressNext = false ∧
      ((phase .limited .write .between).context .a).state = .limited) ∧
    (Reports nakedState .a ∧ (nakedState.engine .a).addressNext = false ∧
      (nakedState.engine .a).addressNaked = true) := by decide

theorem test_witness_WantedReadByteSupplied :
    let s := phase .reading .read .between
    let m := withPath .a { s.path .a with stage := .readPresented, mirroring := true } s
    let o := withEngine .a { busyEngine with readOver := true } s
    (Reports o .a ∧ (o.engine .a).addressNext = false ∧ (o.engine .a).readOver = true) ∧
    (Reports nakedState .a ∧ (nakedState.engine .a).addressNext = false ∧
      (nakedState.engine .a).addressNaked = true) ∧
    (Reports s .a ∧ (s.engine .a).addressNext = false ∧ (s.engine .a).readOver = false ∧
      (s.engine .a).addressNaked = false ∧
      (s.context .a).state = .reading ∧ (s.path .a).stage = .between ∧
      (s.path .a).targetSending = some true) ∧
    (Reports m .a ∧ (m.path .a).stage = .readPresented ∧ (m.path .a).mirroring = true) ∧
    (Reports (reading [5]) .a ∧ ((reading [5]).context .a).state = .mgmtRead ∧
      ((reading [5]).record .a).readCopy = some (5 :: [])) ∧
    (Reports (reading []) .a ∧ ((reading []).record .a).readCopy = some []) ∧
    (Reports (phase .limited .read .readEnded) .a ∧
      ((phase .limited .read .readEnded).context .a).state = .limited) := by decide

/-- The byte that reaches the limit of 2, and the byte before it. -/
theorem test_witness_ReadByteReceivedOrLimited :
    let s := phase .reading .read .readReceiving
    s.resetActive = false ∧ s.holds .a 0 = true ∧ (s.path .a).stage = .readReceiving ∧
      (s.path .a).claim = some (claim .read) ∧ (s.context .a).phaseCount = some 1 ∧
      ((withContext .a { s.context .a with phaseCount := some 0 } s).context .a).phaseCount = some 0 := by
  decide

theorem test_witness_AcknowledgesMirrored :
    let s := withEngine .a { busyEngine with sending := some 9 } (phase .reading .read .readPresented)
    let m := withPath .a { s.path .a with mirroring := true } s
    (Reports s .a ∧ (s.engine .a).sending = some 9) ∧
    (m.resetActive = false ∧ m.holds .a 0 = true ∧ (m.path .a).stage = .readPresented ∧
      (m.path .a).mirroring = true) := by decide

/-- Each report that is wanted, a report already made, and the reports that are not wanted. -/
theorem test_witness_AddressOutcomeAggregated :
    let s := phase .addressing .write .address
    let e := withSegment 0 (seg (.held exhaustedA)) s
    let gone := withSegment 0 (seg (.recovering ⟨none, false⟩)) s
    let told := withPath .a { s.path .a with outcomes := only .ack } s
    let ended := withPath .a Path.reset e
    let c : ClosingRec := ⟨true, 4, .none, none⟩
    (s.resetActive = false ∧ (s.context .a).state = .addressing ∧ (s.path .a).stage = .address ∧
      (s.path .a).outcomes[(0 : SegId)] = some .pending ∧ NoRequest s .a ∧
      (s.segment 0).state = .held heldA ∧ heldA.port = .a ∧ heldA.deferred = false) ∧
    ((e.segment 0).state = .held exhaustedA ∧ exhaustedA.port = .a ∧ exhaustedA.deferred = true ∧
      (e.segment 0).inUse.retry.toNat < exhaustedA.tries) ∧
    gone.holds .a 0 = false ∧ (told.path .a).outcomes[(0 : SegId)] = some .ack ∧
    ((ended.path .a).stage ≠ .address ∧ (ended.segment 0).state = .held exhaustedA) ∧
    (((seg0 (.closing c)).path .a).stage ≠ .address ∧ ((seg0 (.closing c)).segment 0).state = .closing c ∧
      c.deferred = true ∧ ((seg0 (.closing c)).segment 0).inUse.retry.toNat < c.tries) ∧
    (∃ m : SegId, ((s.path .a).outcomes.set (0 : SegId) (some .fault))[m] = some .fault) ∧
    (∃ m : SegId, ((s.path .a).outcomes.set (1 : SegId) (some .ack))[m] = some .pending) ∧
    (¬ ∃ m : SegId, ((s.path .a).outcomes.set (0 : SegId) (some .ack))[m] = some .nak) ∧
    ∃ m : SegId, ((s.path .a).outcomes.set (0 : SegId) (some .nak))[m] = some .nak := by decide

theorem test_witness_WriteAcknowledgeAggregated :
    let s := phase .writing .write .writeByte
    s.resetActive = false ∧ s.holds .a 0 = true ∧ (s.path .a).stage = .writeByte ∧
      (s.path .a).outcomes[(0 : SegId)] = some .pending ∧
      (∀ m : SegId, (s.path .a).outcomes[m] ∈ [none, some .pending, some .ack, some .nak]) ∧
      ∀ m : SegId, s.holds .a m = true ↔ (s.path .a).outcomes[m] ≠ none := by decide

/-! ## Witnesses: the segment controllers -/

theorem test_witness_QuietIntervals :
    (fresh.resetActive = false ∧ (fresh.segment 0).state = .unsynced) ∧
    let s := withSegment 0 { seg (.held deferredA) with quiet := some 5 } ready
    s.resetActive = false ∧ (s.segment 0).state = .held deferredA ∧ deferredA.deferred = true ∧
      (s.segment 0).quiet.isSome = true := by decide

/-- A loss within the retry limit of 3, and the loss that exceeds it. -/
theorem test_witness_ArbitrationLosses :
    let s := phase .addressing .write .address
    let w := phase .writing .write .writeByte
    let c : ClosingRec := { closingRec with completion := .finishWrite }
    (s.resetActive = false ∧ (s.segment 0).state = .held heldA ∧ heldA.deferred = false ∧
      (s.path .a).stage = .address ∧ (s.path .a).outcomes[(0 : SegId)] = some .pending ∧
      2 + 1 ≤ (s.segment 0).inUse.retry.toNat ∧ (s.segment 0).inUse.retry.toNat < 3 + 1) ∧
    (w.resetActive = false ∧ (w.segment 0).state = .held heldA ∧ (w.path .a).stage = .writeByte ∧
      (w.path .a).outcomes[(0 : SegId)] = some .pending ∧ (w.context .a).state.holding = true ∧
      NoRequest w .a) ∧
    (((seg0 (.closing c)).segment 0).state = .closing c ∧ c.deferred = false ∧
      c.completion = .finishWrite) := by decide

/-- Each state, a held one within and at the opening of its phase, a deferred segment before and after its winner's stop and after EXHAUSTED, and a closing with
and without isolation pending. -/
theorem test_witness_ForeignStartsAndStops :
    let stopped := { deferredA with winnerStop := true }
    let waits := { exhaustedA with winnerStop := true }
    let watched := withSegment 0 { seg (.held stopped) with quiet := some 5 } ready
    let pending : IsolationPending := ⟨.b, true⟩
    (fresh.resetActive = false ∧ (fresh.segment 0).state = .unsynced) ∧
    (∀ x ∈ [SegState.idle, .foreign, .isolated, .recovering ⟨some .a, false⟩, .closing closingRec,
        .closing { closingRec with isolation := some pending }, .closing { closingRec with deferred := true },
        .closing { closingRec with deferred := true, isolation := some pending }],
      ((seg0 x).segment 0).state = x) ∧
    (((seg0 (.held deferredA)).segment 0).state = .held deferredA ∧ deferredA.deferred = true ∧
      deferredA.winnerStop = false) ∧
    ((watched.segment 0).state = .held stopped ∧ (watched.segment 0).quiet.isSome = true) ∧
    (((seg0 (.held waits)).segment 0).state = .held waits ∧ waits.winnerStop = true ∧
      ((seg0 (.held waits)).segment 0).quiet = none) ∧
    let s := phase .writing .write .between
    let o := phase .addressing .write .address
    (s.resetActive = false ∧ (s.segment 0).state = .held heldA ∧ heldA.deferred = false ∧
      (s.context .a).state.holding = true ∧ NoRequest s .a ∧ (s.path .a).stage ≠ .address) ∧
    (o.resetActive = false ∧ (o.segment 0).state = .held heldA ∧ (o.context .a).state.holding = true ∧
      NoRequest o .a ∧ (o.path .a).stage = .address ∧ (o.path .a).outcomes[(0 : SegId)] = some .pending) := by
  decide

theorem test_witness_LineFaults :
    let c : ClosingRec := { closingRec with deferred := true, isolation := some ⟨.b, true⟩ }
    let d := withSegment 0 (seg (.held deferredA)) (phase .addressing .write .address)
    (ready.resetActive = false ∧ (ready.segment 0).state = .idle) ∧
    ((fresh.segment 0).state = .unsynced ∧ (fresh.segment 0).inUse.autoRecover = true) ∧
    (((seg0 .foreign).segment 0).state = .foreign) ∧
    (d.resetActive = false ∧ (d.segment 0).state = .held deferredA ∧ deferredA.deferred = true ∧
      (d.context .a).state.holding = true ∧ NoRequest d .a) ∧
    ((seg0 (.closing { c with isolation := none })).segment 0).state =
      .closing { c with isolation := none } ∧
    ((seg0 (.closing c)).segment 0).state = .closing c := by decide

theorem test_witness_StretchFaultAborts :
    let s := phase .writing .write .between
    let c : ClosingRec := { closingRec with isolation := some ⟨.b, true⟩ }
    (s.resetActive = false ∧ (s.segment 0).state = .held heldA ∧ heldA.deferred = false ∧
      (s.context .a).state.holding = true ∧ NoRequest s .a ∧ (s.segment 0).inUse.autoRecover = true) ∧
    (((seg0 (.closing closingRec)).segment 0).state = .closing closingRec ∧ closingRec.deferred = false) ∧
    ((seg0 (.closing c)).segment 0).state = .closing c := by decide

theorem test_witness_ClosingAndRecoveryEnd :
    let c : ClosingRec := { closingRec with isolation := some ⟨.b, true⟩ }
    let r : RecoveringRec := ⟨some .a, false⟩
    let s := withSegment 0 { seg (.recovering r) with failedAttempts := 2 } ready
    (((seg0 (.closing closingRec)).segment 0).state = .closing closingRec ∧ closingRec.deferred = false ∧
      closingRec.isolation = none) ∧
    (((seg0 (.closing c)).segment 0).state = .closing c ∧ c.deferred = false ∧
      c.isolation = some ⟨.b, true⟩) ∧
    (((seg0 (.recovering { r with betweenAttempts := true })).segment 0).state =
      .recovering { r with betweenAttempts := true }) ∧
    (((seg0 (.recovering r)).segment 0).state = .recovering r ∧ r.betweenAttempts = false ∧
      ((seg0 (.recovering r)).segment 0).failedAttempts < 2 ∧ 16 ≤ 16) ∧
    ((s.segment 0).state = .recovering r ∧ (s.segment 0).failedAttempts = 2) := by decide

theorem test_witness_RefillAndTimestamp : fresh.resetActive = false := by decide

/-! ## Witnesses: the invariants -/

/-- A state with one command waiting. -/
def queued (c : Instr) (s : State) : State := { s with pending := [c] }

theorem test_witness_LogOrderAndAlertsKept :
    LogOk (queued (.logPop .a) withLog) ∧
      ∃ t, step (queued (.logPop .a) withLog) = .next t :=
  ⟨by unfold LogOk; decide, _, rfl⟩

theorem test_witness_RightsAndSettingsKept :
    ManagementOk (queued (.rightsRevoke .a) fresh) ∧ ∃ t, step (queued (.rightsRevoke .a) fresh) = .next t :=
  ⟨by unfold ManagementOk; decide, _, rfl⟩

theorem test_witness_GenerationStagingAndCreditsKept :
    TableOk (queued (.tableCommit .a 0 0) fresh) ∧ ∃ t, step (queued (.tableCommit .a 0 0) fresh) = .next t :=
  ⟨⟨by decide, fun _ _ => rfl, by decide⟩, _, rfl⟩

theorem test_witness_DrivenAddressesKept :
    AddressesOk (queued (.address .a 0x20 .write) (started ready)) ∧
      ∃ t, step (queued (.address .a 0x20 .write) (started ready)) = .next t :=
  ⟨by unfold AddressesOk; exact ⟨by decide, by decide, by decide⟩, _, rfl⟩

theorem test_witness_AgreementKept :
    Agreement (queued (.stop .a) (phase .writing .write .between)) ∧
      ∃ t, step (queued (.stop .a) (phase .writing .write .between)) = .next t :=
  ⟨agreement_of (by decide) (by decide) phase_route (by decide), _, rfl⟩

/-- A phase whose count of 1 is below its limit of 2. -/
theorem test_witness_LengthLimitsKept :
    let s := queued (.writeByte .a 7) (phase .writing .write .between)
    Agreement s ∧ LengthsOk s ∧ ∃ t, step s = .next t := by
  refine ⟨agreement_of (by decide) (by decide) phase_route (by decide), ⟨?_, ?_⟩, _, rfl⟩
  · intro c hc
    cases hc
    exact ⟨rfl, 1, rfl, by decide⟩
  · intro c hc
    cases hc

end Sys2Proof.Tests
end

section
/-! PROOFS. The reset values, the resets and the plain reports of an upstream engine. -/

namespace Sys2Proof.Machine

/-- Settles O3: the reset state written out, for each level of the strap. -/
theorem resetValues : Obligations.ResetValues := by
  unfold Obligations.ResetValues
  intro h
  have mask : ∀ k : EventKind, (Config.resetAlertMask).getLsbD (eventCode k) = (k != .transaction) := by
    intro k; cases k <;> rfl
  have path : ∀ n : SegId, Path.reset.outcomes[n] = none ∧ Path.reset.sums[n] = 0 := by
    intro n; simp [Path.reset, noOutcomes]
  refine ⟨⟨⟨rfl, rfl, rfl, rfl, rfl, rfl, rfl, rfl, rfl, rfl, path, rfl, rfl, rfl, rfl, rfl, rfl, rfl, mask⟩,
    rfl, rfl, rfl, rfl, rfl, rfl, rfl, rfl, rfl, rfl, path, rfl, rfl, rfl, rfl, rfl, rfl, rfl, mask⟩,
    rfl, rfl, rfl, rfl, rfl, rfl, rfl, rfl, rfl, rfl, ?_, ?_, rfl, ?_, rfl, rfl, rfl, rfl, rfl⟩
  · intro i
    simp [State.atReset, TableControl.reset, Bank.reset, RouteEntry.reset]
  · intro i
    simp [State.atReset, TableControl.reset, Bank.reset, Profile.reset]
  · intro n
    simp [State.atReset, State.segment, Segment.reset, SegConfig.reset]

/-- Settles O4, by running the three reset commands. -/
theorem resetPlacesAndReleasesEveryBlock : Obligations.ResetPlacesAndReleasesEveryBlock := by
  unfold Obligations.ResetPlacesAndReleasesEveryBlock
  refine ⟨fun s h => ⟨_, rfl, rfl, rfl⟩, fun s hs => ?_⟩
  show execResetEnd s = _
  rw [execResetEnd, if_pos hs]
  rfl

/-- Settles O5: by the tracker, a start is the opening of a transaction. -/
theorem startAndByteComplete : Obligations.StartAndByteComplete := by
  unfold Obligations.StartAndByteComplete
  intro s p
  refine ⟨fun hr ht => ?_, fun hrep => ?_⟩
  · show act (upstreamStart p) s = _
    rw [act_next _ _ hr, upstreamStart, if_pos ht]
    rfl
  · show act (reported p _) s = _
    rw [reported_next _ _ _ hrep]
    cases (s.context p).state.forwarding <;> rfl

end Sys2Proof.Machine
end

section
/-! PROOFS. The conditions on an upstream bus: repeated start, stop and bus error. -/

namespace Sys2Proof.Machine

/-! ### Replacing a part, with and below an event -/

@[simp] theorem withContext_self (p : Port) (s : State) : withContext p (s.context p) s = s := by
  cases p <;> rfl
theorem withContext_of_eq {p : Port} {c : Context} {s : State} (h : s.context p = c) :
    withContext p c s = s := by rw [← h, withContext_self]
@[simp] theorem withPath_self (p : Port) (s : State) : withPath p (s.path p) s = s := by
  cases p <;> rfl
@[simp] theorem withContext_withContext (p : Port) (c d : Context) (s : State) :
    withContext p c (withContext p d s) = withContext p c s := by cases p <;> rfl

/-- The log looks at its own content and at the alert masks only. -/
theorem raise_frame (e : Event) (s t : State) (hl : s.log = t.log) (hm : s.mgmt = t.mgmt) :
    raise e s = { s with log := (raise e t).log } := by rw [raise_eq, raise_log_congr e hl hm]

theorem raise_withEngine (e : Event) (p : Port) (x : Engine) (s : State) :
    raise e (withEngine p x s) = withEngine p x (raise e s) :=
  (raise_frame e (withEngine p x s) s rfl rfl).trans (congrArg (withEngine p x) (raise_eq e s).symm)
theorem raise_withContext (e : Event) (p : Port) (c : Context) (s : State) :
    raise e (withContext p c s) = withContext p c (raise e s) :=
  (raise_frame e (withContext p c s) s rfl rfl).trans (congrArg (withContext p c) (raise_eq e s).symm)
theorem raise_withPath (e : Event) (p : Port) (q : Path) (s : State) :
    raise e (withPath p q s) = withPath p q (raise e s) :=
  (raise_frame e (withPath p q s) s rfl rfl).trans (congrArg (withPath p q) (raise_eq e s).symm)
theorem raise_withSegment (e : Event) (n : SegId) (x : Segment) (s : State) :
    raise e (withSegment n x s) = withSegment n x (raise e s) :=
  (raise_frame e (withSegment n x s) s rfl rfl).trans (congrArg (withSegment n x) (raise_eq e s).symm)

/-- An event raised where it is due. -/
def raiseIf (due : Bool) (e : Event) (s : State) : State := if due then raise e s else s

section raiseIf

variable (due : Bool) (e : Event) (s : State)

@[simp] theorem raiseIf_engine (p : Port) : (raiseIf due e s).engine p = s.engine p := by
  cases due <;> simp [raiseIf]
@[simp] theorem raiseIf_context (p : Port) : (raiseIf due e s).context p = s.context p := by
  cases due <;> simp [raiseIf]
@[simp] theorem raiseIf_path (p : Port) : (raiseIf due e s).path p = s.path p := by
  cases due <;> simp [raiseIf]
@[simp] theorem raiseIf_record (p : Port) : (raiseIf due e s).record p = s.record p := by
  cases due <;> simp [raiseIf]

theorem raiseIf_withContext (p : Port) (c : Context) :
    raiseIf due e (withContext p c s) = withContext p c (raiseIf due e s) := by
  cases due <;> simp [raiseIf, raise_withContext]

end raiseIf

/-- The event of TRANSACTION, from the context whose phase ends (R81). -/
def transactionEvent (p : Port) (c : Context) : Event :=
  ⟨.transaction, some p, none, c.upstream, c.route, c.phaseCount.getD 0⟩

/-- The states in which the end of a phase raises an owed TRANSACTION (R64, R80, R81). -/
def CtxState.traces : CtxState → Bool
  | .writing | .reading | .limited | .ignoring | .aborted => true
  | _ => false

theorem CtxState.traces_eq (c : CtxState) : c.traces = (c.forwarding || c == .ignoring || c == .aborted) := by
  cases c <;> rfl

/-- TRANSACTION is raised where it is owed, and is owed no more (R81). -/
theorem raiseTransaction_eq (p : Port) (s : State) :
    raiseTransaction p s = withContext p { s.context p with traceOwed := false }
      (raiseIf (s.context p).traceOwed (transactionEvent p (s.context p)) s) := by
  unfold raiseTransaction
  cases h : (s.context p).traceOwed with
  | true => simp [raiseIf, modContext_eq, transactionEvent, phaseEvent]
  | false =>
    have hc : { s.context p with traceOwed := false } = s.context p := by rw [← h]
    simp [raiseIf, hc]

/-- The end of a phase at a repeated start, but for a write in MGMT_WRITE (R64, R78, R81). -/
theorem closePhase_eq (p : Port) (s : State) (hm : (s.context p).state ≠ .mgmtWrite) :
    closePhase p s = withContext p
      { s.context p with
        traceOwed := (s.context p).traceOwed && !((s.context p).traceOwed && (s.context p).state.traces)
        idleTimer := if (s.context p).state.forwarding then some (s.record p).idleLimit
          else (s.context p).idleTimer }
      (raiseIf ((s.context p).traceOwed && (s.context p).state.traces)
        (transactionEvent p (s.context p)) s) := by
  generalize hc : s.context p = c at hm ⊢
  obtain ⟨state, _, _, _, _, _, _, owed, _, _⟩ := c
  have self := withContext_of_eq hc
  cases state <;> cases owed <;>
    simp_all [closePhase, CtxState.traces, CtxState.forwarding, raiseTransaction_eq, modContext_eq,
      raiseIf, raise_withContext, transactionEvent]

/-- A byte being presented ends with NAK before the condition acts (R113). -/
theorem endPresented_eq (p : Port) (s : State) :
    endPresented p s = if (s.path p).stage = .readPresented then readEnded p s else s := by
  rw [endPresented, endRead_eq]

/-- What the end of a presented byte leaves alone. -/
theorem endPresented_kept (p : Port) (s : State) :
    (endPresented p s).engines = s.engines ∧ (endPresented p s).contexts = s.contexts ∧
      (endPresented p s).mgmt = s.mgmt := by
  unfold endPresented; split <;> exact ⟨rfl, rfl, rfl⟩

@[simp] theorem endPresented_engine (p k : Port) (s : State) :
    (endPresented p s).engine k = s.engine k := by rw [State.engine, (endPresented_kept p s).1]; rfl
@[simp] theorem endPresented_context (p k : Port) (s : State) :
    (endPresented p s).context k = s.context k := by rw [State.context, (endPresented_kept p s).2.1]; rfl
@[simp] theorem endPresented_record (p k : Port) (s : State) :
    (endPresented p s).record k = s.record k := by rw [State.record, (endPresented_kept p s).2.2]; rfl

/-- With the tracker BUSY a start is a repeated start (R4, R64). -/
theorem execRepeatedStart_eq (p : Port) (s : State) (h : Reports s p) :
    execRepeatedStart p s = .next (modPath p Path.phaseEnd
      (modEngine p (fun e => { e.atCondition with addressNext := true })
        (closePhase p (endPresented p s)))) := by
  rw [execRepeatedStart, act_next _ _ h.1, upstreamStart, if_neg (by simp [h.2.1]), repeatTransaction,
    reported, if_pos h.2]

/-- Settles O6: what ends with the phase is told by the context as the condition finds it. -/
theorem repeatedStartClosesPhase : Obligations.RepeatedStartClosesPhase := by
  unfold Obligations.RepeatedStartClosesPhase
  intro s p h hm c owed s1 c' s2
  show execRepeatedStart p s = _
  rw [execRepeatedStart_eq p s h, closePhase_eq p _ (by simpa using hm)]
  have howed : owed = (c.traceOwed && c.state.traces) := by rw [CtxState.traces_eq]
  have h1 : s1 = endPresented p s := (endPresented_eq p s).symm
  clear_value owed s1
  subst howed h1
  simp only [modPath_eq, modEngine_eq, withContext_engine, withContext_path, withEngine_path,
    raiseIf_engine, raiseIf_path, endPresented_engine, endPresented_context, endPresented_record]
  rfl

/-- The held segments released and the pin counted off, the path EMPTY (R47, R94, R118). -/
def forwardingLeft (p : Port) (s : State) : State :=
  { s with table := unpinnedTable p s, segments := releasedSegments p false s
           paths := s.paths.set p (s.path p).toEmpty }

/-- The end of forwarding, at the context and elsewhere (R80). -/
theorem leaveForwarding_eq (p : Port) (s : State) :
    leaveForwarding p s = withContext p { s.context p with pin := none } (forwardingLeft p s) := by
  rw [leaveForwarding, releasePin_eq, releaseAll_eq]
  rfl

/-- What a stop does to the phase that ends, but for a write in MGMT_WRITE (R80, R81). -/
theorem closeTransaction_eq (p : Port) (s : State) (hm : (s.context p).state ≠ .mgmtWrite) :
    ∃ c, closeTransaction p s = withContext p c
      (raiseIf ((s.context p).traceOwed && (s.context p).state.traces)
        (transactionEvent p (s.context p))
        (if (s.context p).state.forwarding then forwardingLeft p s else s)) := by
  have left : raiseTransaction p (leaveForwarding p s) =
      withContext p { s.context p with pin := none, traceOwed := false }
        (raiseIf (s.context p).traceOwed (transactionEvent p (s.context p)) (forwardingLeft p s)) := by
    simp [raiseTransaction_eq, leaveForwarding_eq, raiseIf_withContext, transactionEvent]
  cases hs : (s.context p).state with
  | mgmtWrite => exact absurd hs hm
  | writing | reading | limited =>
    exact ⟨_, by simpa [closeTransaction, hs, CtxState.traces, CtxState.forwarding] using left⟩
  | ignoring | aborted =>
    exact ⟨_, by simpa [closeTransaction, hs, CtxState.traces, CtxState.forwarding] using
      raiseTransaction_eq p s⟩
  | idle | mgmtRead | waiting | addressing =>
    exact ⟨s.context p, by simp [closeTransaction, hs, CtxState.traces, CtxState.forwarding, raiseIf]⟩

@[simp] theorem forwardingLeft_engine (p k : Port) (s : State) :
    (forwardingLeft p s).engine k = s.engine k := rfl
@[simp] theorem forwardingLeft_record (p k : Port) (s : State) :
    (forwardingLeft p s).record k = s.record k := rfl

/-- Settles O7: what a stop releases and raises is told by the context as the stop finds it. -/
theorem stopEndsTransaction : Obligations.StopEndsTransaction := by
  unfold Obligations.StopEndsTransaction
  intro s p h hm c owed s1 s2 s3
  show act (reported p _) s = _
  have howed : owed = (c.traceOwed && c.state.traces) := by rw [CtxState.traces_eq]
  have h1 : s1 = endPresented p s := (endPresented_eq p s).symm
  have h2 : s2 = if c.state.forwarding then forwardingLeft p s1 else s1 := rfl
  have h3 : s3 = raiseIf owed (transactionEvent p c) s2 := rfl
  have engine : s3.engine p = s.engine p := by
    rw [h3, raiseIf_engine, h2, h1]; split <;> simp
  have record : s3.record p = s.record p := by
    rw [h3, raiseIf_record, h2, h1]; split <;> simp
  obtain ⟨c', hc'⟩ := closeTransaction_eq p (endPresented p s) (by simpa using hm)
  rw [endPresented_context, ← h1, ← howed, ← h2, ← h3] at hc'
  rw [reported_next _ _ _ h]
  simp only [← h1, hc', modPath_eq, modEngine_eq, modContext_eq, modRecord_eq, withContext_engine,
    withContext_path, withContext_record, withRecord_engine, withRecord_path, withEngine_path,
    withContext_withContext, engine, record]
  rfl

/-- Settles O9: the state decides what the condition ends. -/
theorem busErrorByState : Obligations.BusErrorByState := by
  unfold Obligations.BusErrorByState
  intro s p h hw c s1 ev
  show act (reported p _) s = _
  rw [reported_next _ _ _ h]
  show Host.Outcome.next (if c.state.forwarding then abort p .upstreamError (raise (ev 1) s1)
    else if c.state = .mgmtWrite ∧ (s.record p).reception.isSome then
      modContext p (fun c => { c with state := .ignoring }) (dropReception p (raise (ev 2) s1))
    else raise (ev 0) s1) = _
  have hc : (raise (ev 1) s1).context p = c := by simp [s1, c]
  by_cases hf : c.state.forwarding = true
  · rw [if_pos hf, if_pos hf, abort_eq p .upstreamError _ (by rw [hc]; exact hf) (by simpa [NoRequest, s1] using hw)]
  · rw [if_neg hf, if_neg hf]
    simp [dropReception, modContext_eq, modRecord_eq, s1, c]
end Sys2Proof.Machine
end

section
/-! PROOFS. Every command answers and leaves the queue: no operation touches it. -/

namespace Sys2Proof.Machine
@[simp] theorem ite_pending (c : Prop) [Decidable c] (s t : State) :
    (if c then s else t).pending = if c then s.pending else t.pending := apply_ite ..
@[simp] theorem evalAlerts_pending (s : State) :
    (evalAlerts s).pending = s.pending := rfl
@[simp] theorem evalAlert_pending (p : Port) (s : State) :
    (evalAlert p s).pending = s.pending := rfl
@[simp] theorem respond_pending (p : Port) (x : Status) (d : List Byte) (s : State) :
    (respond p x d s).pending = s.pending := rfl
@[simp] theorem respondPending_pending (p : Port) (c : PendingCommand) (s : State) :
    (respondPending p c s).pending = s.pending := rfl
@[simp] theorem respondFinal_pending (p : Port) (x : Status) (d : List Byte) (s : State) :
    (respondFinal p x d s).pending = s.pending := rfl
@[simp] theorem answerAddress_pending (p : Port) (a : Ack) (s : State) :
    (answerAddress p a s).pending = s.pending := rfl
@[simp] theorem giveAck_pending (p : Port) (a : Ack) (s : State) :
    (giveAck p a s).pending = s.pending := rfl
@[simp] theorem supply_pending (p : Port) (b : Byte) (s : State) :
    (supply p b s).pending = s.pending := rfl
@[simp] theorem requestPin_pending (p : Port) (s : State) :
    (requestPin p s).pending = s.pending := by simp [requestPin]
@[simp] theorem releasePin_pending (p : Port) (s : State) :
    (releasePin p s).pending = s.pending := by rw [releasePin_eq]
@[simp] theorem releaseSegments_pending (p : Port) (a : Bool) (k : SegId → Bool) (s : State) :
    (releaseSegments p a k s).pending = s.pending := rfl
@[simp] theorem releaseAll_pending (p : Port) (a : Bool) (s : State) :
    (releaseAll p a s).pending = s.pending := rfl
@[simp] theorem grant_pending (p : Port) (g : SegSet) (s : State) :
    (grant p g s).pending = s.pending := rfl
@[simp] theorem examine_pending (s : State) :
    (examine s).pending = s.pending := (examine_unexamined s).pending
@[simp] theorem withdraw_pending (p : Port) (s : State) :
    (withdraw p s).pending = s.pending := (withdraw_unexamined p s).pending
@[simp] theorem countDenial_pending (i : RouteId) (s : State) :
    (countDenial i s).pending = s.pending := rfl
@[simp] theorem countHit_pending (i : RouteId) (s : State) :
    (countHit i s).pending = s.pending := rfl
@[simp] theorem refuse_pending (p : Port) (k : EventKind) (n : Option SegId) (l : Bool) (s : State) :
    (refuse p k n l s).pending = s.pending := by
  simp only [refuse]; split <;> simp
theorem foldl_pending {α : Type} (f : State → α → State) (hf : ∀ s x, (f s x).pending = s.pending)
    (l : List α) (s : State) : (l.foldl f s).pending = s.pending := by
  induction l generalizing s with
  | nil => rfl
  | cons x l ih => exact (ih _).trans (hf s x)
@[simp] theorem isolateRequest_pending (n : SegId) (r : Request) (s : State) :
    (isolateRequest n r s).pending = s.pending := by simp [isolateRequest]
@[simp] theorem arbiterIsolation_pending (n : SegId) (s : State) :
    (arbiterIsolation n s).pending = s.pending := by
  simp [arbiterIsolation, foldl_pending]
@[simp] theorem abortHold_pending (p : Port) (s : State) :
    (abortHold p s).pending = s.pending := by unfold abortHold; split <;> simp
@[simp] theorem abort_pending (p : Port) (r : AbortReason) (s : State) :
    (abort p r s).pending = s.pending := by simp [abort]
@[simp] theorem enterIdle_pending (n : SegId) (s : State) :
    (enterIdle n s).pending = s.pending := by simp [enterIdle]
@[simp] theorem enterIsolated_pending (n : SegId) (p : Option Port) (d : Byte) (s : State) :
    (enterIsolated n p d s).pending = s.pending := by simp [enterIsolated]
@[simp] theorem enterRecovering_pending (n : SegId) (p : Option Port) (s : State) :
    (enterRecovering n p s).pending = s.pending := rfl
@[simp] theorem finishIsolation_pending (n : SegId) (i : IsolationPending) (s : State) :
    (finishIsolation n i s).pending = s.pending := by simp [finishIsolation]
@[simp] theorem faultTransition_pending (n : SegId) (p : Option Port) (s : State) :
    (faultTransition n p s).pending = s.pending := by simp [faultTransition]
@[simp] theorem closingFault_pending (n : SegId) (c : ClosingRec) (s : State) :
    (closingFault n c s).pending = s.pending := by unfold closingFault; split <;> simp
@[simp] theorem closingToUnsynced_pending (n : SegId) (c : ClosingRec) (h : Bool) (s : State) :
    (closingToUnsynced n c h s).pending = s.pending := by unfold closingToUnsynced; split <;> simp
@[simp] theorem addressAccepted_pending (p : Port) (s : State) :
    (addressAccepted p s).pending = s.pending := rfl
@[simp] theorem addressRefused_pending (p : Port) (s : State) :
    (addressRefused p s).pending = s.pending := by simp [addressRefused]
@[simp] theorem formAddressOutcome_pending (p : Port) (s : State) :
    (formAddressOutcome p s).pending = s.pending := by simp [formAddressOutcome]
@[simp] theorem raiseExhausted_pending (p : Port) (n : SegId) (s : State) :
    (raiseExhausted p n s).pending = s.pending := by simp [raiseExhausted]
@[simp] theorem addressReport_pending (p : Port) (n : SegId) (r : AddrReport) (s : State) :
    (addressReport p n r s).pending = s.pending := by simp [addressReport]
@[simp] theorem countByte_pending (p : Port) (s : State) :
    (countByte p s).pending = s.pending := rfl
@[simp] theorem limitWrite_pending (p : Port) (s : State) :
    (limitWrite p s).pending = s.pending := by simp [limitWrite]
@[simp] theorem forwardWrite_pending (p : Port) (b : Byte) (s : State) :
    (forwardWrite p b s).pending = s.pending := rfl
@[simp] theorem writeForwarding_pending (p : Port) (b : Byte) (s : State) :
    (writeForwarding p b s).pending = s.pending := by simp [writeForwarding]
@[simp] theorem formWriteAcknowledge_pending (p : Port) (s : State) :
    (formWriteAcknowledge p s).pending = s.pending := by simp [formWriteAcknowledge]
@[simp] theorem beginRead_pending (p : Port) (s : State) :
    (beginRead p s).pending = s.pending := rfl
@[simp] theorem readForwarding_pending (p : Port) (s : State) :
    (readForwarding p s).pending = s.pending := by simp [readForwarding]
@[simp] theorem endRead_pending (p : Port) (s : State) :
    (endRead p s).pending = s.pending := rfl
@[simp] theorem presentRead_pending (p : Port) (b : Byte) (s : State) :
    (presentRead p b s).pending = s.pending := by simp [presentRead]
@[simp] theorem mirrorAcknowledge_pending (p : Port) (a : Ack) (s : State) :
    (mirrorAcknowledge p a s).pending = s.pending := by unfold mirrorAcknowledge; (repeat' split) <;> simp
@[simp] theorem countFault_pending (n : SegId) (s : State) :
    (countFault n s).pending = s.pending := rfl
@[simp] theorem countDeparture_pending (n : SegId) (s : State) :
    (countDeparture n s).pending = s.pending := rfl
@[simp] theorem countLoss_pending (n : SegId) (s : State) :
    (countLoss n s).pending = s.pending := rfl
@[simp] theorem measure_pending (n : SegId) (f : LineMeasure → LineMeasure) (s : State) :
    (measure n f s).pending = s.pending := rfl
@[simp] theorem loseAddress_pending (n : SegId) (h : HeldRec) (s : State) :
    (loseAddress n h s).pending = s.pending := by simp [loseAddress]
@[simp] theorem loseData_pending (n : SegId) (h : HeldRec) (s : State) :
    (loseData n h s).pending = s.pending := by simp [loseData]
@[simp] theorem heldBusError_pending (n : SegId) (h : HeldRec) (b : Bool) (s : State) :
    (heldBusError n h b s).pending = s.pending := by simp [heldBusError]
@[simp] theorem heldForeignStart_pending (n : SegId) (h : HeldRec) (s : State) :
    (heldForeignStart n h s).pending = s.pending := by simp [heldForeignStart]
@[simp] theorem closingBusError_pending (n : SegId) (c : ClosingRec) (b : Bool) (s : State) :
    (closingBusError n c b s).pending = s.pending := by simp [closingBusError]
@[simp] theorem recoveryToForeign_pending (n : SegId) (r : RecoveringRec) (s : State) :
    (recoveryToForeign n r s).pending = s.pending := by unfold recoveryToForeign; split <;> simp
@[simp] theorem conditionSeen_pending (n : SegId) (s : State) :
    (conditionSeen n s).pending = s.pending := rfl
@[simp] theorem stuckMeasured_pending (n : SegId) (l : Line) (s : State) :
    (stuckMeasured n l s).pending = s.pending := rfl
@[simp] theorem recoverySucceeds_pending (n : SegId) (r : RecoveringRec) (k : Nat) (s : State) :
    (recoverySucceeds n r k s).pending = s.pending := by unfold recoverySucceeds; split <;> simp
@[simp] theorem recoveryFails_pending (n : SegId) (r : RecoveringRec) (s : State) :
    (recoveryFails n r s).pending = s.pending := by unfold recoveryFails; split <;> simp
@[simp] theorem endAttempt_pending (n : SegId) (r : AttemptResult) (s : State) :
    (endAttempt n r s).pending = s.pending := by unfold endAttempt; (repeat' split) <;> simp
@[simp] theorem opSegmentStatus_pending (p : Port) (n : Byte) (s : State) :
    (opSegmentStatus p n s).pending = s.pending := by unfold opSegmentStatus; split <;> simp
@[simp] theorem opSegmentConfigure_pending (p : Port) (n v q t r a : Byte) (s : State) :
    (opSegmentConfigure p n v q t r a s).pending = s.pending := by unfold opSegmentConfigure; split <;> simp
@[simp] theorem isolateHeld_pending (p h : Port) (n : SegId) (s : State) :
    (isolateHeld p h n s).pending = s.pending := by
  simp only [isolateHeld]; split <;> simp
@[simp] theorem opSegmentIsolate_pending (p : Port) (n : Byte) (s : State) :
    (opSegmentIsolate p n s).pending = s.pending := by unfold opSegmentIsolate; (repeat' split) <;> simp
@[simp] theorem opSegmentRestore_pending (p : Port) (n : Byte) (s : State) :
    (opSegmentRestore p n s).pending = s.pending := by unfold opSegmentRestore; split <;> simp
@[simp] theorem opSegmentRecover_pending (p : Port) (n : Byte) (s : State) :
    (opSegmentRecover p n s).pending = s.pending := by unfold opSegmentRecover; (repeat' split) <;> simp
@[simp] theorem loadStaging_pending (p : Port) (f : Bank → Bank) (s : State) :
    (loadStaging p f s).pending = s.pending := by simp [loadStaging]
@[simp] theorem opRouteLoad_pending (p : Port) (i c m k g t f : Byte) (s : State) :
    (opRouteLoad p i c m k g t f s).pending = s.pending := by unfold opRouteLoad; split <;> simp
@[simp] theorem opPolicyLoad_pending (p : Port) (i f w r c a d b : Byte) (s : State) :
    (opPolicyLoad p i f w r c a d b s).pending = s.pending := by unfold opPolicyLoad; split <;> simp
@[simp] theorem opRouteRead_pending (p : Port) (r i : Byte) (s : State) :
    (opRouteRead p r i s).pending = s.pending := by unfold opRouteRead; (repeat' split) <;> simp
@[simp] theorem opPolicyRead_pending (p : Port) (r i : Byte) (s : State) :
    (opPolicyRead p r i s).pending = s.pending := by unfold opPolicyRead; (repeat' split) <;> simp
@[simp] theorem opCounterRead_pending (p : Port) (i : Byte) (s : State) :
    (opCounterRead p i s).pending = s.pending := by unfold opCounterRead; split <;> simp
@[simp] theorem opTableStatus_pending (p : Port) (s : State) :
    (opTableStatus p s).pending = s.pending := rfl
@[simp] theorem forcedAborts_pending (g : BitVec 16) (s : State) :
    (forcedAborts g s).pending = s.pending := by simp [forcedAborts]
@[simp] theorem takeCommit_pending (p : Port) (f : Bool) (s : State) :
    (takeCommit p f s).pending = s.pending := by simp [takeCommit]
@[simp] theorem opTableCommit_pending (p : Port) (e : BitVec 16) (f : Byte) (s : State) :
    (opTableCommit p e f s).pending = s.pending := by unfold opTableCommit; (repeat' split) <;> simp
@[simp] theorem opTableDiscard_pending (p : Port) (s : State) :
    (opTableDiscard p s).pending = s.pending := by simp [opTableDiscard]
@[simp] theorem endCopyBack_pending (s : State) :
    (endCopyBack s).pending = s.pending := by
  simp only [endCopyBack]; split <;> simp
@[simp] theorem opIdentify_pending (p : Port) (s : State) :
    (opIdentify p s).pending = s.pending := rfl
@[simp] theorem opPortStatus_pending (p : Port) (q : Byte) (s : State) :
    (opPortStatus p q s).pending = s.pending := by unfold opPortStatus; split <;> simp
@[simp] theorem opPortConfigure_pending (p : Port) (q a w i : Byte) (m : BitVec 32) (s : State) :
    (opPortConfigure p q a w i m s).pending = s.pending := by unfold opPortConfigure; split <;> simp
@[simp] theorem opRightsGrant_pending (p : Port) (s : State) :
    (opRightsGrant p s).pending = s.pending := rfl
@[simp] theorem opRightsRevoke_pending (p : Port) (s : State) :
    (opRightsRevoke p s).pending = s.pending := rfl
@[simp] theorem opLogPeek_pending (p : Port) (s : State) :
    (opLogPeek p s).pending = s.pending := by unfold opLogPeek; split <;> simp
@[simp] theorem opLogPop_pending (p : Port) (s : State) :
    (opLogPop p s).pending = s.pending := by simp [opLogPop]
@[simp] theorem abortForReset_pending (p : Port) (s : State) :
    (abortForReset p s).pending = s.pending := by simp [abortForReset]
@[simp] theorem resetContext_pending (p : Port) (i : Bool) (s : State) :
    (resetContext p i s).pending = s.pending := by simp [resetContext]
@[simp] theorem emptyLog_pending (s : State) : (emptyLog s).pending = s.pending := rfl
@[simp] theorem resetCredits_pending (s : State) : (resetCredits s).pending = s.pending := rfl
@[simp] theorem opContextReset_pending (p : Port) (s : State) :
    (opContextReset p s).pending = s.pending := by simp [opContextReset]

/-- What holds of the state and of the result of every command on it holds of the result of an execution,
which runs one command or, with a wrong number of arguments, changes nothing (R151). -/
theorem runCommand_induction {P : State → Prop} {p : Port} {s : State} (o : MgmtOp) (args : List Byte)
    (unchanged : P s) (identify : P (opIdentify p s)) (portStatus : ∀ q, P (opPortStatus p q s))
    (portConfigure : ∀ q a w i m, P (opPortConfigure p q a w i m s))
    (rightsGrant : P (opRightsGrant p s)) (rightsRevoke : P (opRightsRevoke p s))
    (routeLoad : ∀ i c m k g t f, P (opRouteLoad p i c m k g t f s))
    (routeRead : ∀ r i, P (opRouteRead p r i s))
    (policyLoad : ∀ i f w r c a d b, P (opPolicyLoad p i f w r c a d b s))
    (policyRead : ∀ r i, P (opPolicyRead p r i s))
    (tableCommit : ∀ e f, P (opTableCommit p e f s)) (tableDiscard : P (opTableDiscard p s))
    (tableStatus : P (opTableStatus p s)) (counterRead : ∀ i, P (opCounterRead p i s))
    (segmentStatus : ∀ n, P (opSegmentStatus p n s))
    (segmentConfigure : ∀ n v q t r a, P (opSegmentConfigure p n v q t r a s))
    (segmentIsolate : ∀ n, P (opSegmentIsolate p n s))
    (segmentRestore : ∀ n, P (opSegmentRestore p n s))
    (segmentRecover : ∀ n, P (opSegmentRecover p n s))
    (logPeek : P (opLogPeek p s)) (logPop : P (opLogPop p s))
    (contextReset : P (opContextReset p s)) : P (runCommand p o args s) := by
  cases o with
  | identify => rcases args with _ | _; exacts [identify, unchanged]
  | portStatus => rcases args with _ | ⟨_, _ | _⟩; exacts [unchanged, portStatus _, unchanged]
  | portConfigure =>
    rcases args with _ | ⟨_, _ | ⟨_, _ | ⟨_, _ | ⟨_, _ | ⟨_, _ | ⟨_, _ | ⟨_, _ | ⟨_, _ | _⟩⟩⟩⟩⟩⟩⟩⟩
    case cons.cons.cons.cons.cons.cons.cons.cons.nil => exact portConfigure ..
    all_goals exact unchanged
  | rightsGrant => rcases args with _ | _; exacts [rightsGrant, unchanged]
  | rightsRevoke => rcases args with _ | _; exacts [rightsRevoke, unchanged]
  | routeLoad =>
    rcases args with _ | ⟨_, _ | ⟨_, _ | ⟨_, _ | ⟨_, _ | ⟨_, _ | ⟨_, _ | ⟨_, _ | _⟩⟩⟩⟩⟩⟩⟩
    case cons.cons.cons.cons.cons.cons.cons.nil => exact routeLoad ..
    all_goals exact unchanged
  | routeRead =>
    rcases args with _ | ⟨_, _ | ⟨_, _ | _⟩⟩; exacts [unchanged, unchanged, routeRead .., unchanged]
  | policyLoad =>
    rcases args with _ | ⟨_, _ | ⟨_, _ | ⟨_, _ | ⟨_, _ | ⟨_, _ | ⟨_, _ | ⟨_, _ | ⟨_, _ | _⟩⟩⟩⟩⟩⟩⟩⟩
    case cons.cons.cons.cons.cons.cons.cons.cons.nil => exact policyLoad ..
    all_goals exact unchanged
  | policyRead =>
    rcases args with _ | ⟨_, _ | ⟨_, _ | _⟩⟩; exacts [unchanged, unchanged, policyRead .., unchanged]
  | tableCommit =>
    rcases args with _ | ⟨_, _ | ⟨_, _ | ⟨_, _ | _⟩⟩⟩
    exacts [unchanged, unchanged, unchanged, tableCommit .., unchanged]
  | tableDiscard => rcases args with _ | _; exacts [tableDiscard, unchanged]
  | tableStatus => rcases args with _ | _; exacts [tableStatus, unchanged]
  | counterRead => rcases args with _ | ⟨_, _ | _⟩; exacts [unchanged, counterRead _, unchanged]
  | segmentStatus => rcases args with _ | ⟨_, _ | _⟩; exacts [unchanged, segmentStatus _, unchanged]
  | segmentConfigure =>
    rcases args with _ | ⟨_, _ | ⟨_, _ | ⟨_, _ | ⟨_, _ | ⟨_, _ | ⟨_, _ | _⟩⟩⟩⟩⟩⟩
    case cons.cons.cons.cons.cons.cons.nil => exact segmentConfigure ..
    all_goals exact unchanged
  | segmentIsolate => rcases args with _ | ⟨_, _ | _⟩; exacts [unchanged, segmentIsolate _, unchanged]
  | segmentRestore => rcases args with _ | ⟨_, _ | _⟩; exacts [unchanged, segmentRestore _, unchanged]
  | segmentRecover => rcases args with _ | ⟨_, _ | _⟩; exacts [unchanged, segmentRecover _, unchanged]
  | logPeek => rcases args with _ | _; exacts [logPeek, unchanged]
  | logPop => rcases args with _ | _; exacts [logPop, unchanged]
  | contextReset => rcases args with _ | _; exacts [contextReset, unchanged]

@[simp] theorem runCommand_pending (p : Port) (o : MgmtOp) (l : List Byte) (s : State) :
    (runCommand p o l s).pending = s.pending := by
  apply runCommand_induction (P := fun t => t.pending = s.pending) <;> intros <;> simp

@[simp] theorem executeCommand_pending (p : Port) (o : MgmtOp) (l : List Byte) (s : State) :
    (executeCommand p o l s).pending = s.pending := by simp [executeCommand]
@[simp] theorem examineBytes_pending (p : Port) (l : List Byte) (s : State) :
    (examineBytes p l s).pending = s.pending := by
  unfold examineBytes; dsimp only; split
  · simp
  · split <;> simp
@[simp] theorem examineReception_pending (p : Port) (r : Reception) (s : State) :
    (examineReception p r s).pending = s.pending := by simp [examineReception]
@[simp] theorem dropReception_pending (p : Port) (s : State) :
    (dropReception p s).pending = s.pending := rfl
@[simp] theorem handOver_pending (p : Port) (s : State) :
    (handOver p s).pending = s.pending := by unfold handOver; split <;> simp
@[simp] theorem raiseTransaction_pending (p : Port) (s : State) :
    (raiseTransaction p s).pending = s.pending := by simp [raiseTransaction]
@[simp] theorem endPresented_pending (p : Port) (s : State) :
    (endPresented p s).pending = s.pending := by simp [endPresented]
@[simp] theorem openTransaction_pending (p : Port) (s : State) :
    (openTransaction p s).pending = s.pending := rfl
@[simp] theorem closePhase_pending (p : Port) (s : State) :
    (closePhase p s).pending = s.pending := by unfold closePhase; split <;> simp
@[simp] theorem upstreamStart_pending (p : Port) (s : State) :
    (upstreamStart p s).pending = s.pending := by
  unfold upstreamStart repeatTransaction reported; simp
@[simp] theorem leaveForwarding_pending (p : Port) (s : State) :
    (leaveForwarding p s).pending = s.pending := by simp [leaveForwarding]
@[simp] theorem closeTransaction_pending (p : Port) (s : State) :
    (closeTransaction p s).pending = s.pending := by unfold closeTransaction; split <;> simp
@[simp] theorem takeAddress_pending (p : Port) (a : Addr) (d : Direction) (s : State) :
    (takeAddress p a d s).pending = s.pending := rfl
@[simp] theorem decideManagement_pending (p : Port) (d : Direction) (s : State) :
    (decideManagement p d s).pending = s.pending := by unfold decideManagement; split <;> simp
@[simp] theorem leaveManagement_pending (p : Port) (s : State) :
    (leaveManagement p s).pending = s.pending := rfl
@[simp] theorem decideNoMatch_pending (p : Port) (s : State) :
    (decideNoMatch p s).pending = s.pending := by simp [decideNoMatch]
@[simp] theorem request_pending (p : Port) (g : SegSet) (h : IsolationHandling) (s : State) :
    (request p g h s).pending = s.pending := by
  simp [request, foldl_pending]
@[simp] theorem keepSegments_pending (p : Port) (g : SegSet) (s : State) :
    (keepSegments p g s).pending = s.pending := rfl
@[simp] theorem placeClaim_pending (p : Port) (c : Claim) (g : SegSet) (s : State) :
    (placeClaim p c g s).pending = s.pending := by simp [placeClaim]
@[simp] theorem decideForward_pending (p : Port) (a : Addr) (d : Direction) (c : Bool) (e : RouteEntry)
    (g : SegSet) (t : Addr) (i : ProfileId) (f : Profile) (s : State) :
    (decideForward p a d c e g t i f s).pending = s.pending := by
  cases h : claimSet s g (routeAggregation g f) <;> simp [decideForward, h]
@[simp] theorem decideRoute_pending (p : Port) (a : Addr) (d : Direction) (s : State) :
    (decideRoute p a d s).pending = s.pending := by
  simp only [decideRoute]; split
  · simp
  · split <;> simp
@[simp] theorem writeManagement_pending (p : Port) (b : Byte) (s : State) :
    (writeManagement p b s).pending = s.pending := by unfold writeManagement; split <;> simp
@[simp] theorem readManagement_pending (p : Port) (s : State) :
    (readManagement p s).pending = s.pending := by unfold readManagement; split <;> simp

/-- The outcome is that of an effect, barred while the device is in reset, that leaves the queue. -/
def Effect (o : Host.Outcome State Fault Refusal) (s : State) : Prop :=
  ∃ f : State → State, o = act f s ∧ (f s).pending = s.pending

theorem act_effect {f : State → State} {s : State} (h : (f s).pending = s.pending) : Effect (act f s) s :=
  ⟨f, rfl, h⟩

theorem reported_effect {p : Port} {f : State → State} {s : State} (h : (f s).pending = s.pending) :
    Effect (act (reported p f) s) s := act_effect (by simp [reported, h])

theorem command_effect (p : Port) (o : MgmtOp) (args : List Byte) (s : State) :
    Effect (command p o args s) s := act_effect (by simp)

theorem Effect.next {o : Host.Outcome State Fault Refusal} {s : State} (h : Effect o s) :
    ∃ t, o = .next t ∧ t.pending = s.pending := by
  obtain ⟨f, rfl, hf⟩ := h
  exact ⟨_, rfl, by simp [hf]⟩

theorem Effect.in_reset {o : Host.Outcome State Fault Refusal} {s : State} (h : Effect o s)
    (hr : s.resetActive = true) : o = .next s := by
  obtain ⟨f, rfl, -⟩ := h
  exact act_in_reset f s hr

/-! The meanings whose effect is told by the state, or by the holder, of a segment. -/

section segments

variable (n : SegId) (s : State)

theorem execDeferredQuietObserved_effect : Effect (execDeferredQuietObserved n s) s :=
  act_effect (by cases (s.segment n).state <;> simp)

theorem execWriteAcknowledge_effect (a : Ack) : Effect (execWriteAcknowledge n a s) s :=
  act_effect (by cases (s.segment n).heldBy <;> simp)

theorem execReadByteReceived_effect (b : Byte) : Effect (execReadByteReceived n b s) s :=
  act_effect (by cases (s.segment n).heldBy <;> simp)

theorem execAcknowledgeSlotDone_effect : Effect (execAcknowledgeSlotDone n s) s :=
  act_effect (by cases (s.segment n).heldBy <;> simp)

theorem execStretchBudget_effect : Effect (execStretchBudget n s) s :=
  act_effect (by cases (s.segment n).heldBy <;> simp)

theorem execArbitrationLoss_effect (point : LossPoint) : Effect (execArbitrationLoss n point s) s :=
  act_effect (by cases point <;> cases (s.segment n).state <;> simp)

theorem execSegmentStartSeen_effect : Effect (execSegmentStartSeen n s) s :=
  act_effect (by cases (s.segment n).state <;> simp)

theorem execSegmentStopSeen_effect : Effect (execSegmentStopSeen n s) s :=
  act_effect (by cases (s.segment n).state <;> simp)

theorem execStretchFault_effect : Effect (execStretchFault n s) s :=
  act_effect (by cases (s.segment n).state <;> simp)

theorem execStuckLineFault_effect (l : Line) : Effect (execStuckLineFault n l s) s :=
  act_effect (by cases (s.segment n).state <;> simp)

theorem execClosingStopDriven_effect : Effect (execClosingStopDriven n s) s := by
  refine act_effect ?_
  cases (s.segment n).state with
  | closing c => cases h : c.isolation <;> simp [h]
  | _ => simp

theorem execRecoveryWaitEnd_effect : Effect (execRecoveryWaitEnd n s) s :=
  act_effect (by cases (s.segment n).state <;> simp)

/-- A recovery attempt that can end has its effect on the segment (R137, R138). -/
theorem execRecoveryAttemptEnd_effect (r : AttemptResult) (h : r.wf = true) :
    Effect (execRecoveryAttemptEnd n r s) s := by
  cases r with
  | success pulses =>
    have hp : pulses ≤ 16 := by simpa [AttemptResult.wf] using h
    rw [execRecoveryAttemptEnd, if_pos hp]
    exact act_effect (endAttempt_pending ..)
  | failure => exact act_effect (endAttempt_pending ..)

end segments

theorem execManagementWrite_effect (p : Port) (bytes : List Byte) (s : State) :
    Effect (execManagementWrite p bytes s) s := act_effect (by simp)

theorem execTimestampTick_effect (s : State) : Effect (execTimestampTick s) s := act_effect rfl

/-- The command reaches a device in reset (R17). -/
def reachesReset : Instr → Bool
  | .powerOn _ | .rstAssert _ | .resetEnd => true
  | _ => false

/-- Every well-formed command but a reset and its end is an effect on the device out of reset, and leaves the
queue. -/
theorem exec_effect (c : Instr) (s : State) (hwf : c.wf = true) (hc : reachesReset c = false) :
    Effect (exec c s) s := by
  cases c
  case powerOn | rstAssert | resetEnd => cases hc
  case start | repeatedStart => exact act_effect (upstreamStart_pending ..)
  case stop | address | controllerAcknowledge | byteComplete | busError => exact reported_effect (by simp)
  case writeByte p b => exact reported_effect (by cases (s.context p).state <;> simp)
  case readByteWanted p => exact reported_effect (by cases (s.context p).state <;> simp)
  case managementWrite => exact execManagementWrite_effect ..
  case addressWaitLimit | idleLimit | refillTimer | quietIntervalObserved | addressOutcome
    | lineLowWithoutStart | copyBackEnd => exact act_effect (by simp)
  case timestampTick => exact execTimestampTick_effect ..
  case deferredQuietObserved => exact execDeferredQuietObserved_effect ..
  case writeAcknowledge => exact execWriteAcknowledge_effect ..
  case readByteReceived => exact execReadByteReceived_effect ..
  case acknowledgeSlotDone => exact execAcknowledgeSlotDone_effect ..
  case stretchBudget => exact execStretchBudget_effect ..
  case arbitrationLoss => exact execArbitrationLoss_effect ..
  case segmentStartSeen => exact execSegmentStartSeen_effect ..
  case segmentStopSeen => exact execSegmentStopSeen_effect ..
  case stretchFault => exact execStretchFault_effect ..
  case stuckLineFault => exact execStuckLineFault_effect ..
  case closingStopDriven => exact execClosingStopDriven_effect ..
  case recoveryWaitEnd => exact execRecoveryWaitEnd_effect ..
  case recoveryAttemptEnd => exact execRecoveryAttemptEnd_effect _ _ _ hwf
  all_goals exact command_effect ..

/-- The only operand that is refused (R137). -/
theorem exec_of_not_wf (c : Instr) (s : State) (h : c.wf = false) :
    exec c s = .refused .operandOutOfRange := by
  cases c with
  | recoveryAttemptEnd n r =>
    cases r with
    | success pulses =>
      have hp : ¬ pulses ≤ 16 := by simpa [Instr.wf, AttemptResult.wf] using h
      simp [exec, execRecoveryAttemptEnd, hp]
    | failure => cases h
  | _ => cases h

/-- Settles O2: each meaning but that of a reset is an effect that leaves the queue. -/
theorem commandsAnswerAndLeaveQueue : Obligations.CommandsAnswerAndLeaveQueue := by
  unfold Obligations.CommandsAnswerAndLeaveQueue
  refine fun c s => ⟨fun hwf => ?_, exec_of_not_wf c s, fun hr hwf h1 h2 h3 => ?_⟩
  · cases hc : reachesReset c with
    | false => exact (exec_effect c s hwf hc).next
    | true =>
      cases c
      case powerOn | rstAssert => exact ⟨_, rfl, rfl⟩
      case resetEnd => exact ⟨_, rfl, by simp⟩
      all_goals cases hc
  · refine (exec_effect c s hwf ?_).in_reset hr
    cases c
    case powerOn h => exact absurd rfl (h1 h)
    case rstAssert h => exact absurd rfl (h2 h)
    case resetEnd => exact absurd rfl h3
    all_goals rfl
end Sys2Proof.Machine
end

section
/-! PROOFS. The data bytes of an upstream port: write bytes the device answers, read bytes and their acknowledges. -/

namespace Sys2Proof.Machine

/-! ### Write bytes the device answers itself -/

/-- A byte taken in and answered at once, with the clock not held (R5, R6). -/
theorem giveAck_taken (p : Port) (b : Byte) (a : Ack) (s : State) (hh : (s.engine p).hold = .none) :
    giveAck p a (modEngine p (fun e => { e with bits := 8, shifter := b }) s) =
      withEngine p { s.engine p with bits := 8, shifter := b, ack := some a } s := by
  rw [giveAck_eq, modEngine_engine_same, ← hh]
  cases p <;> rfl

/-- In passive mode, in LIMITED and in ABORTED the byte gets NAK (R10, R77, R84). -/
theorem execWriteByte_nak (p : Port) (b : Byte) (s : State) (h : Reports s p)
    (hn : (s.engine p).addressNext = false)
    (hp : s.passive p = true ∨ (s.context p).state = .limited ∨ (s.context p).state = .aborted) :
    execWriteByte p b s =
      .next (withEngine p { s.engine p with bits := 8, shifter := b, ack := some .nak } s) := by
  rw [execWriteByte, reported_next _ _ _ h, if_neg (by simp [hn])]
  by_cases hpassive : s.passive p = true
  · simp only [if_pos hpassive, giveAck_taken p b .nak s h.2.2]
  · rcases hp with hp | hp | hp
    · exact absurd hp hpassive
    all_goals simp only [if_neg hpassive, hp, giveAck_taken p b .nak s h.2.2]

/-- In MGMT_WRITE the dispatcher takes the byte and says what the engine answers (R148). -/
theorem execWriteByte_management (p : Port) (b : Byte) (r : Reception) (s : State) (h : Reports s p)
    (hn : (s.engine p).addressNext = false) (hs : (s.context p).state = .mgmtWrite)
    (hk : (s.engine p).addressNaked = false) (hr : (s.record p).reception = some r) :
    execWriteByte p b s = .next
      (withRecord p
        { s.record p with reception := some (receiveByte (s.record p).command.isSome b r).1 }
        (withEngine p { s.engine p with
          bits := 8, shifter := b, ack := some (receiveByte (s.record p).command.isSome b r).2 } s)) := by
  have hpassive : ¬ s.passive p = true := by simp [State.passive, hs, hk, CtxState.passive]
  rw [execWriteByte, reported_next _ _ _ h, if_neg (by simp [hn])]
  simp only [if_neg hpassive, hs, writeManagement, modEngine_record, hr]
  rw [← giveAck_taken p b _ s h.2.2]
  cases p <;> rfl

section receiveByte

variable (b : Byte) (r : Reception)

/-- The count of the bytes of a write stops at 255 (R148). -/
theorem min_count (h : r.count ≤ 255) :
    min (r.count + 1) 255 = if r.count = 255 then 255 else r.count + 1 := by split <;> omega

theorem receiveByte_first_pending (h0 : r.count = 0) :
    receiveByte true b r = ({ r with count := 1, refused := true }, .nak) := by
  simp [receiveByte, h0]

theorem receiveByte_first (h0 : r.count = 0) :
    receiveByte false b r = ({ r with bytes := r.bytes ++ [b], count := 1 }, .ack) := by
  simp [receiveByte, h0]

theorem receiveByte_refused (pending : Bool) (h0 : 0 < r.count) (hr : r.refused = true) :
    receiveByte pending b r = ({ r with count := min (r.count + 1) 255 }, .nak) := by
  simp [receiveByte, Nat.pos_iff_ne_zero.mp h0, hr]

theorem receiveByte_kept (pending : Bool) (h0 : 0 < r.count) (h17 : r.count ≤ 17) (hr : r.refused = false) :
    receiveByte pending b r =
      ({ r with bytes := r.bytes ++ [b], count := min (r.count + 1) 255 }, .ack) := by
  have h18 : min (r.count + 1) 255 ≤ 18 := by omega
  simp only [receiveByte, Nat.pos_iff_ne_zero.mp h0, hr, if_pos h18, if_false, Bool.false_eq_true]

theorem receiveByte_over (pending : Bool) (h18 : 18 ≤ r.count) (hr : r.refused = false) :
    receiveByte pending b r = ({ r with count := min (r.count + 1) 255 }, .nak) := by
  have h0 : r.count ≠ 0 := by omega
  have h19 : ¬ min (r.count + 1) 255 ≤ 18 := by omega
  simp only [receiveByte, h0, hr, if_neg h19, if_false, Bool.false_eq_true]

end receiveByte

/-- Settles O41: what the dispatcher makes of a byte follows its place in the write. -/
theorem writeByteAnsweredByDevice : Obligations.WriteByteAnsweredByDevice := by
  unfold Obligations.WriteByteAnsweredByDevice
  intro s p b h hn reply m run
  refine ⟨fun r hs hk hr => ?_, fun hp => execWriteByte_nak p b s h hn ?_⟩
  · intro count becomes
    have key : ∀ r' a, receiveByte m.command.isSome b r = (r', a) → becomes r' a := by
      intro r' a hra
      have hrun := execWriteByte_management p b r s h hn hs hk hr
      rwa [show receiveByte (s.record p).command.isSome b r = (r', a) from hra] at hrun
    have hcount : r.count ≤ 255 → min (r.count + 1) 255 = count := min_count r
    refine ⟨fun h0 hc => key _ _ ?_, fun h0 hc => key _ _ ?_, fun h0 h255 hf => key _ _ ?_,
      fun h0 h17 hf => key _ _ ?_, fun h18 h255 hf => key _ _ ?_⟩
    · rw [hc, receiveByte_first_pending b r h0]
    · rw [hc]; exact receiveByte_first b r h0
    · rw [receiveByte_refused b r _ h0 hf, hcount h255]
    · rw [receiveByte_kept b r _ h0 h17 hf, hcount (by omega)]
    · rw [receiveByte_over b r _ h18 hf, hcount h255]
  · rcases hp with hp | hp | hp | hp | hp <;> simp [State.passive, CtxState.passive, hp]

/-! ### Read bytes wanted -/

theorem execReadByteWanted_passive (p : Port) (s : State) (h : Reports s p)
    (hn : (s.engine p).readOver = true ∨ s.passive p = true) : execReadByteWanted p s = .next s := by
  rw [execReadByteWanted, reported_next _ _ _ h, if_pos (.inr hn)]

/-- Who supplies a wanted byte, by the state of the context (R77, R84, R109, R153). -/
theorem execReadByteWanted_by_state (p : Port) (s : State) (h : Reports s p)
    (hn : (s.engine p).addressNext = false) (ho : (s.engine p).readOver = false)
    (hk : (s.engine p).addressNaked = false) :
    ((s.context p).state = .mgmtRead → execReadByteWanted p s = .next (readManagement p s)) ∧
    ((s.context p).state = .reading → execReadByteWanted p s = .next (readForwarding p s)) ∧
    ((s.context p).state = .limited ∨ (s.context p).state = .aborted →
      execReadByteWanted p s = .next (supply p Config.fillByte s)) := by
  have wanted : (s.context p).state.passive = false →
      ¬ ((s.engine p).addressNext = true ∨ (s.engine p).readOver = true ∨ s.passive p = true) := by
    intro hs
    simp [hn, ho, hk, hs, State.passive]
  simp only [execReadByteWanted, reported_next _ _ _ h]
  refine ⟨fun hs => ?_, fun hs => ?_, fun hs => ?_⟩
  · rw [if_neg (wanted (by rw [hs]; rfl))]; simp only [hs]
  · rw [if_neg (wanted (by rw [hs]; rfl))]; simp only [hs]
  · rcases hs with hs | hs <;> rw [if_neg (wanted (by rw [hs]; rfl))] <;> simp only [hs]

/-- Settles O42: the state of the context, and in READING the stage of the path, say who supplies the byte. -/
theorem wantedReadByteSupplied : Obligations.WantedReadByteSupplied := by
  unfold Obligations.WantedReadByteSupplied
  intro s p h hn q e m supplied run
  refine ⟨fun hp => execReadByteWanted_passive p s h ?_, fun ho hk => ?_⟩
  · rcases hp with hp | hp | hp | hp
    · exact .inl hp
    all_goals exact .inr (by simp [State.passive, CtxState.passive, hp, show (s.engine p) = e from rfl])
  obtain ⟨management, reading, fill⟩ := execReadByteWanted_by_state p s h hn ho hk
  have supplies : ∀ b u, u.engine p = e →
      supply p b u = withEngine p { e with sending := some b, shifter := b } u := by
    intro b u hu
    rw [supply_eq, hu, ← h.2.2]
  refine ⟨fun hs hg ht => (reading hs).trans ?_, fun hs hg hm => (reading hs).trans ?_,
    fun b rest hs hr => (management hs).trans ?_, fun hs hr => (management hs).trans ?_,
    fun hs => (fill hs).trans ?_⟩
  · rw [readForwarding, if_pos ⟨hg, ht⟩]; rfl
  · have hne : ¬ (q.stage = .between ∧ q.targetSending = some true) := by simp [hg]
    rw [readForwarding, if_neg hne, if_pos ⟨hg, hm⟩]; rfl
  · simp only [readManagement, show (s.record p).readCopy = some (b :: rest) from hr]
    rw [supplies _ _ (modRecord_engine ..)]; rfl
  · simp only [readManagement, show (s.record p).readCopy = some [] from hr, supplies _ s rfl]; rfl
  · rw [supplies _ s rfl]; rfl

/-! ### The read byte and its acknowledge -/

/-- A byte counter stops at 255 (R105, R109). -/
theorem satInc_byte (k : Byte) : satInc k = if k = 255 then 255 else k + 1 := by
  by_cases h : k = 255
  · subst h; rfl
  · rw [satInc, if_neg (show k ≠ BitVec.allOnes 8 from h), if_neg h]

theorem holds_iff (s : State) (p : Port) (n : SegId) :
    s.holds p n = true ↔ (s.segment n).heldBy = some p := by simp [State.holds]

/-- The byte presented last leaves no trace at the end of the read (R112). -/
theorem readEnded_presented (p : Port) (n : SegId) (b : Byte) (s : State) (hh : s.holds p n = true) :
    readEnded p (withPath p
      { s.path p with stage := .readPresented, byte := some b, targetSending := some false }
      (withSegment n { s.segment n with bits := 8 } s)) = readEnded p s := by
  have hn : (s.segment n).heldBy = some p := (holds_iff s p n).mp hh
  generalize hu : withPath p _ _ = u
  have hseg : ∀ m, u.segment m = if m = n then { s.segment n with bits := 8 } else s.segment m := by
    intro m; rw [← hu, withPath_segment, withSegment_segment]
  have segs : (readEnded p u).segments = (readEnded p s).segments := by
    simp only [readEnded, hseg]
    congr 1
    funext m
    by_cases hm : m = n
    · subst hm
      have hb : ({ s.segment m with bits := 8 } : Segment).heldBy = some p := hn
      simp only [if_pos, hb, hn]
    · simp only [if_neg hm]
  calc readEnded p u = { readEnded p s with segments := (readEnded p u).segments } := by
        rw [← hu]; cases p <;> rfl
    _ = readEnded p s := by rw [segs]

/-- Settles O43: the byte that reaches the limit is presented like any other, and the read ends with it. -/
theorem readByteReceivedOrLimited : Obligations.ReadByteReceivedOrLimited := by
  unfold Obligations.ReadByteReceivedOrLimited
  intro s p n b c k hr hh hg hc hk k' x e
  show execReadByteReceived n b s = _
  rw [execReadByteReceived, act_next _ _ hr]
  have hx : ({ s.context p with phaseCount := (s.context p).phaseCount.map satInc } : Context) = x := by
    simp [hk, x, k', satInc_byte]
  let u := withContext p x
    (withPath p { s.path p with stage := .readPresented, byte := some b, targetSending := some false }
      (withSegment n { s.segment n with bits := 8 } (withEngine p e s)))
  have presented : supply p b (countByte p (modPath p (fun q =>
      { q with stage := .readPresented, byte := some b, targetSending := some false })
      (modSegment n (fun x => { x with bits := 8 }) s))) = u := by
    rw [countByte, modContext_eq]
    simp only [modPath_context, modSegment_context, hx]
    cases p <;> rfl
  have limit : ((s.path p).claim.map (·.maxRead)).getD 0 = c.maxRead := by rw [hc]; rfl
  have ended : modContext p (fun c => { c with state := .limited }) (endRead p u) =
      withContext p { x with state := .limited } (readEnded p (withEngine p e s)) := by
    have hu : endRead p u = withContext p x (readEnded p (withEngine p e s)) := by
      rw [endRead_eq, ← readEnded_presented p n b (withEngine p e s) hh]; rfl
    rw [hu, modContext_eq, withContext_context_same, withContext_withContext]
  simp only [(holds_iff s p n).mp hh, if_pos hg, presentRead, presented, modSegment_path, limit, ended]
  by_cases full : c.maxRead ≠ 0 ∧ k' = c.maxRead
  · have hcount : (u.context p).phaseCount = some c.maxRead := by simp [u, x, full.2]
    rw [if_pos full, if_pos ⟨full.1, hcount⟩, phaseEvent, withContext_context_same]
  · have hcount : ¬ (c.maxRead ≠ 0 ∧ (u.context p).phaseCount = some c.maxRead) := by
      simpa [u, x] using full
    rw [if_neg full, if_neg hcount]

theorem mirrorAcknowledge_ack (p : Port) (s : State) (h : (s.path p).stage = .readPresented) :
    mirrorAcknowledge p .ack s = withPath p { s.path p with mirroring := true } s := by
  unfold mirrorAcknowledge; rw [if_pos h, modPath_eq]

theorem mirrorAcknowledge_nak (p : Port) (s : State) (h : (s.path p).stage = .readPresented) :
    mirrorAcknowledge p .nak s = readEnded p s := by
  unfold mirrorAcknowledge; rw [if_pos h, endRead_eq]

theorem mirrorAcknowledge_unpresented (p : Port) (a : Ack) (s : State)
    (h : (s.path p).stage ≠ .readPresented) : mirrorAcknowledge p a s = s := by
  unfold mirrorAcknowledge; rw [if_neg h]

/-- Settles O44: the acknowledge acts on the path only where a byte is presented. -/
theorem acknowledgesMirrored : Obligations.AcknowledgesMirrored := by
  unfold Obligations.AcknowledgesMirrored
  refine ⟨fun s p a b h hb => ?_, fun s p n hr hh hg hm => ?_⟩
  · intro q e u
    show execControllerAcknowledge p a s = _
    rw [execControllerAcknowledge, reported_next _ _ _ h, if_neg (by simp [hb])]
    show Host.Outcome.next (if (s.context p).state = .reading then mirrorAcknowledge p a u else u) = _
    by_cases hs : (s.context p).state = .reading
    · rw [if_pos hs]
      by_cases hg : q.stage = .readPresented
      · rw [if_pos (And.intro hs hg)]
        cases a
        · rw [mirrorAcknowledge_ack p u hg]; rfl
        · rw [mirrorAcknowledge_nak p u hg]
      · rw [if_neg (fun k : _ ∧ q.stage = _ => hg k.2), mirrorAcknowledge_unpresented p a u hg]
    · rw [if_neg (fun k : _ ∧ q.stage = _ => hs k.1), if_neg hs]
  · intro q u
    show execAcknowledgeSlotDone n s = _
    rw [execAcknowledgeSlotDone, act_next _ _ hr]
    simp only [(holds_iff s p n).mp hh, if_pos (And.intro hg hm)]
    cases hw : (s.path p).wanted with
    | true => 
      simp only [if_true, beginRead]
      cases p <;> rfl
    | false => rfl
end Sys2Proof.Machine
end

section
/-! PROOFS. The completions a stage gives, and the aggregation of write acknowledges. -/

namespace Sys2Proof.Machine

/-! ### The completion a stage gives (R117) -/

section completionOf

variable {q : Path} (n : SegId)

theorem completionOf_address_pending (h : q.stage = .address) (ho : q.outcomes[n] = some .pending) :
    q.completionOf n = .finishAddress ((q.claim.map (·.direction)).getD .write) := by
  unfold Path.completionOf; simp only [h, ho]

theorem completionOf_address_ack (h : q.stage = .address) (ho : q.outcomes[n] = some .ack) :
    q.completionOf n =
      if (q.claim.map (·.direction)).getD .write = .read then .clockByteNak else .none := by
  unfold Path.completionOf; simp only [h, ho]

theorem completionOf_address_other (h : q.stage = .address)
    (ho : q.outcomes[n] ∈ [none, some .nak, some .exhausted, some .fault]) : q.completionOf n = .none := by
  unfold Path.completionOf
  simp only [List.mem_cons, List.not_mem_nil, or_false] at ho
  rcases ho with ho | ho | ho | ho <;> simp only [h, ho]

theorem completionOf_between (h : q.stage = .between) :
    q.completionOf n = if q.targetSending = some true then .clockByteNak else .none := by
  unfold Path.completionOf; simp only [h]

theorem completionOf_writeByte (h : q.stage = .writeByte) :
    q.completionOf n = if q.outcomes[n] = some .pending then .finishWrite else .none := by
  unfold Path.completionOf; simp only [h]

theorem completionOf_readReceiving (h : q.stage = .readReceiving) : q.completionOf n = .finishReadNak := by
  unfold Path.completionOf; simp only [h]

theorem completionOf_readPresented (h : q.stage = .readPresented) : q.completionOf n = .slotNak := by
  unfold Path.completionOf; simp only [h]

theorem completionOf_finished (h : q.stage = .empty ∨ q.stage = .readEnded) : q.completionOf n = .none := by
  unfold Path.completionOf; rcases h with h | h <;> simp only [h]

end completionOf

/-! ### What the path knows of its segments -/

theorem getElem_set_segId {α : Type} (v : Vector α 8) (n m : SegId) (x : α) :
    (v.set n x)[m] = if m = n then x else v[m] := by
  by_cases h : m = n
  · subst h; simp
  · have hv : (n : Nat) ≠ m := fun e => h (Fin.ext e.symm)
    simp [h, hv]

theorem mem_segIds (n : SegId) : n ∈ segIds := by revert n; decide

theorem hasOutcome_iff (q : Path) (o : SegOutcome) :
    q.hasOutcome o = true ↔ ∃ m : SegId, q.outcomes[m] = some o := by
  simp [Path.hasOutcome, mem_segIds]

theorem acked_iff (q : Path) (n : SegId) : q.acked n = true ↔ q.outcomes[n] = some .ack := by
  simp [Path.acked]

/-- The claim combines its segments under ANY (R99). -/
theorem aggregation_any_iff (q : Path) : q.aggregation = .any ↔ ∃ c ∈ q.claim, c.aggregation = .any := by
  cases h : q.claim <;> simp [Path.aggregation, h]

/-- When the reports combine to ACK (R102, R106). -/
theorem combinesToAck_iff (q : Path) :
    q.combinesToAck = true ↔
      (q.aggregation = .any ∧ ∃ m : SegId, q.outcomes[m] = some .ack) ∨
      (q.aggregation ≠ .any ∧ (¬ ∃ m : SegId, q.outcomes[m] = some .nak) ∧
        (¬ ∃ m : SegId, q.outcomes[m] = some .exhausted) ∧ ¬ ∃ m : SegId, q.outcomes[m] = some .fault) := by
  simp only [← hasOutcome_iff, Path.combinesToAck]
  cases q.aggregation <;> simp [and_assoc]

theorem ofFn_segment (s : State) : (Vector.ofFn fun n => s.segment n) = s.segments := by
  ext i hi
  simp [State.segment]

theorem segments_ext {s t : State} (h : ∀ m, s.segment m = t.segment m) : s.segments = t.segments := by
  ext i hi
  exact h ⟨i, hi⟩

/-! ### Write acknowledges -/

/-- With a write byte acknowledged by every segment taking part, the release of those without ACK reaches the
ones that gave NAK, which have nothing to complete (R107, R117). -/
theorem releaseSegments_nak {p : Port} {v : State} {q : Path} (m : SegId) (hq : v.path p = q)
    (hg : q.stage = .writeByte) (hknown : q.outcomes[m] ∈ [none, some .ack, some .nak])
    (hheld : v.holds p m = true ↔ q.outcomes[m] ≠ none) :
    (releaseSegments p false q.acked v).segment m =
      if q.outcomes[m] = some .nak then (v.segment m).released false .none else v.segment m := by
  rw [holds_iff] at hheld
  have hacked : q.acked m = (q.outcomes[m] == some .ack) := rfl
  rw [releaseSegments_segment, hq, completionOf_writeByte m hg, hacked]
  generalize q.outcomes[m] = x at hknown hheld
  simp only [List.mem_cons, List.not_mem_nil, or_false] at hknown
  rcases hknown with rfl | rfl | rfl <;> simp [hheld]

/-- Settles O46: the last acknowledge of a byte combines the recorded ones. -/
theorem writeAcknowledgeAggregated : Obligations.WriteAcknowledgeAggregated := by
  unfold Obligations.WriteAcknowledgeAggregated
  intro s p n a hr hh hg hpend hknown hheld o q some_ any ok run u done
  let v := withPath p q u
  have hrun : run = .next (formWriteAcknowledge p v) := by
    show execWriteAcknowledge n a s = _
    unfold execWriteAcknowledge
    rw [act_next _ _ hr]
    simp only [(holds_iff s p n).mp hh, if_pos (And.intro hg hpend)]
    cases a <;> rfl
  have hq : v.path p = q := withPath_path_same ..
  have hout : ∀ m : SegId, q.outcomes[m] = if m = n then some o else (s.path p).outcomes[m] :=
    fun m => getElem_set_segId _ n m _
  have hknown' : ∀ m : SegId, q.outcomes[m] ∈ [none, some .pending, some .ack, some .nak] := by
    intro m
    rw [hout m]
    split
    · cases a <;> simp [o]
    · exact hknown m
  have hheld' : ∀ m : SegId, v.holds p m = true ↔ q.outcomes[m] ≠ none := by
    intro m
    rw [hout m, holds_iff, show v.segment m = u.segment m from rfl, withSegment_segment]
    by_cases hm : m = n
    · subst hm
      rw [if_pos rfl, if_pos rfl]
      exact ⟨fun _ => Option.some_ne_none _, fun _ => (holds_iff s p m).mp hh⟩
    · simpa only [if_neg hm] using (holds_iff s p m).symm.trans (hheld m)
  have hpending : q.hasOutcome .pending = true ↔ some_ .pending := hasOutcome_iff ..
  have hok : q.combinesToAck = true ↔ ok := by
    have none_other : ∀ x, x ∉ [none, some SegOutcome.pending, some .ack, some .nak] →
        ¬ ∃ m : SegId, q.outcomes[m] = x := fun x hx ⟨m, hm⟩ => hx (hm ▸ hknown' m)
    simp only [combinesToAck_iff, ne_eq, aggregation_any_iff,
      none_other _ (show some SegOutcome.exhausted ∉ _ by decide),
      none_other _ (show some SegOutcome.fault ∉ _ by decide), not_false_eq_true, and_true]
    rfl
  refine ⟨fun hp => ?_, fun hp ho => ?_, fun hp ho => ?_⟩
  · simp only [hrun, formWriteAcknowledge, hq, if_pos (hpending.mpr hp), v]
  · have hsegs : (releaseSegments p false q.acked v).segments = (done .ack).segments := by
      refine segments_ext fun m => ?_
      have hsettled : q.outcomes[m] ∈ [none, some .ack, some .nak] := by
        have hnp : q.outcomes[m] ≠ some .pending := fun k => hp ⟨m, k⟩
        have hm := hknown' m
        simp only [List.mem_cons, hnp, false_or] at hm ⊢
        exact hm
      have hnak : q.outcomes[m] = some .nak ↔ any ∧ some_ .ack ∧ q.outcomes[m] = some .nak :=
        ⟨fun k => ho.elim (fun k' => ⟨k'.1, k'.2, k⟩) fun k' => absurd ⟨m, k⟩ k'.2, fun k => k.2.2⟩
      rw [releaseSegments_nak m hq hg hsettled (hheld' m), if_congr hnak rfl rfl]
      simp [done, State.segment, v]
    simp only [hrun, formWriteAcknowledge, hq, if_neg (mt hpending.mp hp), hok.mpr ho, if_true]
    rw [releaseSegments_eq, hsegs]
    cases p <;> rfl
  · have hno : q.combinesToAck = false := by simpa using mt hok.mp ho
    have hsegs : (done .nak).segments = u.segments := by
      have hany : ∀ m : SegId, ¬ (any ∧ some_ .ack ∧ q.outcomes[m] = some .nak) :=
        fun m k => ho (.inl ⟨k.1, k.2.1⟩)
      simp only [done, hany, if_false, ofFn_segment]
    simp only [hrun, formWriteAcknowledge, hq, if_neg (mt hpending.mp hp), hno]
    show Host.Outcome.next _ = .next { done .nak with segments := (done .nak).segments }
    rw [hsegs]
    cases p <;> rfl
end Sys2Proof.Machine
end

section
/-! PROOFS. The release of a segment, and what a segment controller drives. -/

namespace Sys2Proof.Machine

/-! ### What a release does to one segment (R94, R124, R136) -/

section released

variable {x : Segment} {h : HeldRec} (byAbort : Bool) (c : Completion)

theorem released_inControl (hx : x.state = .held h) (hd : h.deferred = false) :
    x.released byAbort c =
      { x with state := .closing ⟨false, h.tries, c, none⟩
               aborts := if byAbort then satInc x.aborts else x.aborts, quiet := none } := by
  cases byAbort <;> simp [Segment.released, hx, hd]

theorem released_deferred (hx : x.state = .held h) (hd : h.deferred = true) (hw : h.winnerStop = false) :
    x.released byAbort c =
      { x with state := .closing ⟨true, h.tries, .none, none⟩
               aborts := if byAbort then satInc x.aborts else x.aborts, quiet := none } := by
  cases byAbort <;> simp [Segment.released, hx, hd, hw]

theorem released_winnerStop (hx : x.state = .held h) (hd : h.deferred = true) (hw : h.winnerStop = true) :
    x.released byAbort c =
      { x with state := .unsynced, aborts := if byAbort then satInc x.aborts else x.aborts
               quiet := some x.inUse.quiet } := by
  cases byAbort <;> simp [Segment.released, Segment.toUnsynced, hx, hd, hw]

theorem released_notHeld (hx : ∀ h, x.state ≠ .held h) : x.released byAbort c = x := by
  unfold Segment.released
  split
  · exact absurd ‹_› (hx _)
  · rfl

end released

/-! ### What a segment controller drives (R11) -/

section drive

variable {s : State} {n : SegId}

theorem drive_inControl {h : HeldRec} (hx : (s.segment n).state = .held h) (hd : h.deferred = false) :
    s.drive n = (s.path h.port).drive n h := by
  unfold State.drive; simp [hx, hd]

variable {q : Path} (n) (h : HeldRec)

theorem path_drive_address {c : Claim} (hg : q.stage = .address) (hc : q.claim = some c) :
    q.drive n h = if q.outcomes[n] = some .pending then
      .opening h.completion h.opening c.address c.direction else .clockLow := by
  unfold Path.drive
  simp only [hg, hc]
  split
  · simp_all
  · rw [if_neg]; simp_all

theorem path_drive_writeByte {b : Byte} (hg : q.stage = .writeByte) (hb : q.byte = some b) :
    q.drive n h = if q.outcomes[n] = some .pending then .byteOut b else .clockLow := by
  unfold Path.drive
  simp only [hg, hb]
  split
  · simp_all
  · rw [if_neg]; simp_all

end drive

/-- Settles O8, by the state of the segment and the stage of the path. -/
theorem releaseOfSegment : Obligations.ReleaseOfSegment := by
  unfold Obligations.ReleaseOfSegment
  refine ⟨fun x byAbort c => ?_, fun q n c hc => ?_, fun s n => ?_⟩
  · exact ⟨fun h hx hd => released_inControl _ _ hx hd, fun h hx hd hw => released_deferred _ _ hx hd hw,
      fun h hx hd hw => released_winnerStop _ _ hx hd hw, fun hx => released_notHeld _ _ hx⟩
  · have hdir : (q.claim.map (·.direction)).getD .write = c.direction := by rw [hc]; rfl
    exact ⟨fun hg ho => hdir ▸ completionOf_address_pending n hg ho,
      fun hg ho => hdir ▸ completionOf_address_ack n hg ho, completionOf_address_other n,
      completionOf_between n, completionOf_writeByte n, completionOf_readReceiving n,
      completionOf_readPresented n, completionOf_finished n⟩
  · intro x
    refine ⟨fun h c hx hd hc => ?_, fun c hx => ?_, fun r hx => ?_, fun hx => ?_⟩
    · intro q
      rw [drive_inControl hx hd]
      refine ⟨fun hg => path_drive_address n h hg hc, fun b hg hb => path_drive_writeByte n h hg hb,
        fun hg => ?_, fun hg => ?_, fun hg => ?_⟩
      · unfold Path.drive; simp only [show (s.path h.port).stage = _ from hg]
      · unfold Path.drive; simp only [show (s.path h.port).stage = _ from hg]; rfl
      · unfold Path.drive; rcases hg with hg | hg <;> simp only [show (s.path h.port).stage = _ from hg]
    · unfold State.drive; simp only [show (s.segment n).state = _ from hx]
    · unfold State.drive; simp only [show (s.segment n).state = _ from hx]
    · unfold State.drive
      rcases hx with ⟨h, hx, hd⟩ | hx | hx | hx | hx <;> simp only [show (s.segment n).state = _ from hx]
      rw [if_pos hd]
end Sys2Proof.Machine
end

section
/-! PROOFS. The aggregation of address outcomes. -/

namespace Sys2Proof.Machine

@[simp] theorem withSegment_self (n : SegId) (s : State) : withSegment n (s.segment n) s = s := by
  simp [withSegment, State.segment]

/-! ### Address reports, wanted and stray -/

theorem execAddressOutcome_eq (p : Port) (n : SegId) (r : AddrReport) (s : State)
    (hr : s.resetActive = false) :
    execAddressOutcome p n r s = .next (if s.canReport p n r then addressReport p n r s else s) := by
  rw [execAddressOutcome, act_next _ _ hr]

/-- ARB_EXHAUSTED with the tries of the segment, in the phase of the port (R101). -/
theorem raiseExhausted_eq (p : Port) (n : SegId) (s : State) :
    raiseExhausted p n s = raise ⟨.arbExhausted, some p, some n, (s.context p).upstream,
      (s.context p).route, BitVec.ofNat 8 (s.segment n).tries⟩ s := rfl

theorem addressReport_stray (p : Port) (n : SegId) (r : AddrReport) (s : State)
    (h : (s.path p).stage ≠ .address ∨ (s.path p).outcomes[n] = none) :
    addressReport p n r s = if r = .exhausted then raiseExhausted p n s else s := by
  have hn : ¬ ((s.path p).stage = .address ∧ (s.path p).outcomes[n].isSome = true) := by
    rintro ⟨hg, ho⟩
    rcases h with h | h
    · exact h hg
    · rw [h] at ho; cases ho
  rw [addressReport, if_neg hn]

theorem addressReport_second (p : Port) (n : SegId) (r : AddrReport) (s : State)
    (hg : (s.path p).stage = .address) (hn : (s.path p).outcomes[n] ≠ none)
    (ho : (s.path p).outcomes[n] ≠ some .pending) : addressReport p n r s = s := by
  rw [addressReport, if_pos ⟨hg, Option.isSome_iff_ne_none.mpr hn⟩, if_neg ho]

theorem addressReport_wanted (p : Port) (n : SegId) (r : AddrReport) (s : State)
    (hg : (s.path p).stage = .address) (ho : (s.path p).outcomes[n] = some .pending) :
    addressReport p n r s = formAddressOutcome p
      (modPath p (fun q => { q with outcomes := q.outcomes.set n (some (reportOutcome r)) })
        (modSegment n (Segment.reported r) (if r = .exhausted then raiseExhausted p n s else s))) := by
  rw [addressReport, if_pos ⟨hg, by rw [ho]; rfl⟩, if_pos ho]

/-! ### The aggregated address outcome (R73, R103) -/

theorem addressAccepted_eq (p : Port) (s : State) :
    addressAccepted p s = { s with
      segments := Vector.ofFn fun m =>
        if s.holds p m ∧ (s.path p).outcomes[m] ≠ some .ack then
          (s.segment m).released false ((s.path p).completionOf m) else s.segment m
      paths := s.paths.set p
        { s.path p with stage := .between, outcomes := Vector.replicate 8 none,
                        targetSending := if (s.context p).direction = some .read then some true else none }
      contexts := s.contexts.set p
        { s.context p with
          state := if (s.context p).direction = some .read then .reading else .writing
          waitTimer := none, idleTimer := some (s.record p).idleLimit }
      engines := s.engines.set p { s.engine p with hold := .none, ack := some .ack,
                                                   addressNaked := false } } := by
  have hsegs : (releaseSegments p false (s.path p).acked s).segments = Vector.ofFn fun m =>
      if s.holds p m ∧ (s.path p).outcomes[m] ≠ some .ack then
        (s.segment m).released false ((s.path p).completionOf m) else s.segment m := by
    rw [← ofFn_segment]
    congr 1
    funext m
    have hiff : ((s.segment m).heldBy = some p ∧ (s.path p).acked m = false) ↔
        (s.holds p m = true ∧ (s.path p).outcomes[m] ≠ some .ack) := by
      rw [holds_iff, ne_eq, ← acked_iff, Bool.not_eq_true]
    rw [releaseSegments_segment, if_congr hiff rfl rfl]
  rw [addressAccepted, releaseSegments_eq, hsegs]
  cases p <;> rfl

theorem addressRefused_eq (p : Port) (s : State) :
    addressRefused p s = { s with
      table := unpinnedTable p s
      segments := releasedSegments p false s
      paths := s.paths.set p (s.path p).toEmpty
      contexts := s.contexts.set p
        { s.context p with state := .ignoring, waitTimer := none, pin := none }
      engines := s.engines.set p { s.engine p with hold := .none, ack := some .nak,
                                                   addressNaked := true } } := by
  rw [addressRefused, releasePin_eq, releaseAll_eq]
  cases p <;> rfl

/-- Settles O45: a report is stray, repeated or wanted, and a wanted one is formed into the outcome. -/
theorem addressOutcomeAggregated : Obligations.AddressOutcomeAggregated := by
  unfold Obligations.AddressOutcomeAggregated
  intro s p n r hr x beyond exhausted run stray
  have hrun : run = .next (if s.canReport p n r then addressReport p n r s else s) :=
    execAddressOutcome_eq p n r s hr
  refine ⟨fun hne hs => ?_, fun hg ho hn => ?_, fun h hre hs hx hp hd hb => ?_,
    fun c hre hs hx hd hb => ?_, fun hx hg ho hw hcan => ?_⟩
  · rw [hrun, addressReport_stray p n r s hs, if_neg hne, ite_self]
  · rw [hrun, addressReport_second p n r s hg hn (fun k => ho _ k rfl), ite_self]
  · subst hre
    have hcan : s.canReport p n .exhausted = true := by
      simpa [State.canReport, Segment.exhausted, Segment.deferred, Segment.tries, Segment.heldBy, hx, hp, hd,
        (otherPort_ne p).symm] using hb
    rw [hrun, if_pos hcan, addressReport_stray p n _ s hs, if_pos rfl, raiseExhausted_eq]
    simp only [Segment.tries, hx]
    rfl
  · subst hre
    have hcan : s.canReport p n .exhausted = true := by
      simpa [State.canReport, Segment.exhausted, Segment.deferred, Segment.tries, Segment.heldBy, hx, hd]
        using hb
    rw [hrun, if_pos hcan, addressReport_stray p n _ s hs, if_pos rfl, raiseExhausted_eq]
    simp only [Segment.tries, hx]
    rfl
  · intro o outs s1 s2 some_ agg ok
    have hcan' : s.canReport p n r = true := by
      cases r with
      | ack | nak =>
        obtain ⟨h, hh, hp, hd⟩ := hcan
        simp [State.canReport, State.holds, Segment.deferred, Segment.heldBy, hh, hp, hd]
      | exhausted =>
        obtain ⟨h, hh, hp, hd, hb⟩ := hcan
        simpa [State.canReport, Segment.exhausted, Segment.deferred, Segment.tries, Segment.heldBy, hh, hp, hd,
          (otherPort_ne p).symm] using hb
      | fault => simpa [State.canReport] using hcan
    have hs1 : modSegment n (Segment.reported r) (if r = .exhausted then raiseExhausted p n s else s) = s1 := by
      cases r with
      | ack | nak =>
        obtain ⟨h, hh, hp, hd⟩ := hcan
        simp [s1, hh, modSegment_eq, Segment.reported, Segment.modHeld, Segment.noBits]
      | exhausted =>
        obtain ⟨h, hh, hp, hd, hb⟩ := hcan
        simp [s1, hh, modSegment_eq, Segment.reported, raiseExhausted_eq, Segment.tries,
          ← raise_withSegment]
        rfl
      | fault => simp [s1, modSegment_eq, Segment.reported]
    obtain ⟨hcontexts, hengines, hmgmt, hpaths, hwait⟩ : s1.contexts = s.contexts ∧ s1.engines = s.engines ∧
        s1.mgmt = s.mgmt ∧ s1.paths = s.paths ∧ s1.waitList = s.waitList := by
      rw [← hs1]; split <;> simp [raiseExhausted_eq]
    have hpath : s1.path p = s.path p := by rw [State.path, hpaths]; rfl
    have hcontext : s2.context p = x := by rw [withPath_context, State.context, hcontexts]; rfl
    have hengine : s2.engine p = s.engine p := by rw [withPath_engine, State.engine, hengines]; rfl
    have hrecord : s2.record p = s.record p := by rw [withPath_record, State.record, hmgmt]; rfl
    have hformed : run = .next (formAddressOutcome p s2) := by
      have ho : some (reportOutcome r) = some o := by cases r <;> rfl
      rw [hrun, if_pos hcan', addressReport_wanted p n r s hg ‹_›, hs1, modPath_eq, hpath, ho]
    have hsome : ∀ v, (s2.path p).hasOutcome v = true ↔ some_ v := by
      intro v
      rw [hasOutcome_iff, withPath_path_same]
    have hok : ¬ some_ .fault → ((s2.path p).combinesToAck = true ↔ ok) := by
      intro hf
      have hagg : (s2.path p).aggregation = agg := by
        rw [withPath_path_same]
        show ((s.path p).claim.map (·.aggregation)).getD .single = agg
        cases hc : (s.path p).claim <;> simp [agg, hc]
      rw [combinesToAck_iff, hagg, withPath_path_same]
      exact or_congr Iff.rfl (and_congr_right' (and_congr_right' (and_iff_left hf)))
    refine ⟨fun hf => ?_, fun hf hp => ?_, fun hf hp ho => ?_, fun hf hp ho => ?_⟩
    · have hreach : AbortReason.downFault.reaches (s2.context p).state = true := by rw [hcontext, hx]; rfl
      have hno : NoRequest s2 p := by rw [NoRequest, withPath_waitList, hwait]; exact hw
      rw [hformed, formAddressOutcome, if_pos ((hsome _).mpr hf), abort_eq _ _ _ hreach hno]
    · rw [hformed, formAddressOutcome, if_neg (mt (hsome _).mp hf), if_pos ((hsome _).mpr hp)]
    · rw [hformed, formAddressOutcome, if_neg (mt (hsome _).mp hf), if_neg (mt (hsome _).mp hp),
        if_pos ((hok hf).mpr ho), addressAccepted_eq, hcontext, hengine, hrecord, withPath_path_same]
    · rw [hformed, formAddressOutcome, if_neg (mt (hsome _).mp hf), if_neg (mt (hsome _).mp hp),
        if_neg (mt (hok hf).mp ho), addressRefused_eq, hcontext, hengine]
end Sys2Proof.Machine
end

section
/-! PROOFS. Quiet intervals, and the end of a closing and of a recovery. -/

namespace Sys2Proof.Machine

@[simp] theorem withSegment_withSegment (n : SegId) (x y : Segment) (s : State) :
    withSegment n x (withSegment n y s) = withSegment n x s := by simp [withSegment]

/-- The entry of a segment into IDLE, otherwise as x says (R90, R123). -/
theorem enterIdle_withSegment (n : SegId) (x : Segment) (s : State) :
    enterIdle n (withSegment n x s) =
      examine (withSegment n { x with state := .idle, quiet := none, inUse := x.stored } s) := by
  simp [enterIdle, modSegment_eq]

/-- Settles O47: in UNSYNCED the interval frees the segment, on a deferred one the tries decide. -/
theorem quietIntervals : Obligations.QuietIntervals := by
  unfold Obligations.QuietIntervals
  intro s n hr x
  refine ⟨fun hx => ?_, fun h hx hd hq => ?_⟩
  · show act _ s = _
    rw [act_next _ _ hr, if_pos hx, measure, modSegment_eq, enterIdle_withSegment]
    rfl
  · have hexh : x.exhausted = decide (x.inUse.retry.toNat < h.tries) := by
      simp [Segment.exhausted, Segment.deferred, Segment.tries, hx, hd]
    show execDeferredQuietObserved n s = _
    unfold execDeferredQuietObserved
    rw [act_next _ _ hr]
    simp only [show (s.segment n).state = .held h from hx]
    rw [if_pos ⟨hd, hq⟩, modSegment_eq]
    congr 2
    show (if x.exhausted = true then _ else _) = _
    simp only [hexh, decide_eq_true_eq]
    rfl

/-! ### Isolation and faults of a segment otherwise as x says -/

theorem finishIsolation_withSegment (n : SegId) (i : IsolationPending) (x : Segment) (s : State) :
    finishIsolation n i (withSegment n x s) = isolatedByCommand n i x s := by
  rw [finishIsolation_eq, withSegment_segment_same]
  simp [isolatedByCommand]

theorem faultTransition_withSegment (n : SegId) (p : Option Port) (x : Segment) (s : State) :
    faultTransition n p (withSegment n x s) = afterFault n p x s := by
  rw [faultTransition_eq, withSegment_segment_same]
  simp [afterFault]

section closingAndRecovery

variable {s : State} {n : SegId}

/-- The stop of a closing under control, without a pending isolation (R135). -/
theorem execClosingStopDriven_idle {c : ClosingRec} (hr : s.resetActive = false)
    (hx : (s.segment n).state = .closing c) (hd : c.deferred = false) (hi : c.isolation = none) :
    execClosingStopDriven n s = .next (enterIdle n (modSegment n Segment.noBits s)) := by
  unfold execClosingStopDriven
  rw [act_next _ _ hr]
  simp only [hx, hd, hi, Bool.false_eq_true, if_false]

/-- The stop of a closing under control, with a pending isolation (R135). -/
theorem execClosingStopDriven_isolated {c : ClosingRec} {i : IsolationPending} (hr : s.resetActive = false)
    (hx : (s.segment n).state = .closing c) (hd : c.deferred = false) (hi : c.isolation = some i) :
    execClosingStopDriven n s =
      .next (finishIsolation n i (modSegment n Segment.noBits s)) := by
  unfold execClosingStopDriven
  rw [act_next _ _ hr]
  simp only [hx, hd, hi, Bool.false_eq_true, if_false]

variable {r : RecoveringRec} (hr : s.resetActive = false) (hx : (s.segment n).state = .recovering r)
  (hb : r.betweenAttempts = false)
include hr hx hb

/-- An attempt under way succeeds (R138). -/
theorem execRecoveryAttemptEnd_success {pulses : Nat} (hp : pulses ≤ 16) :
    execRecoveryAttemptEnd n (.success pulses) s = .next (recoverySucceeds n r pulses s) := by
  rw [execRecoveryAttemptEnd, if_pos hp, act_next _ _ hr]
  unfold endAttempt
  simp only [hx, hb, Bool.false_eq_true, if_false]

/-- An attempt under way fails (R138). -/
theorem execRecoveryAttemptEnd_failure :
    execRecoveryAttemptEnd n .failure s = .next (recoveryFails n r s) := by
  rw [execRecoveryAttemptEnd, act_next _ _ hr]
  unfold endAttempt
  simp only [hx, hb, Bool.false_eq_true, if_false]

end closingAndRecovery

/-- Settles O52: the record of the closing or recovering segment says what its end brings. -/
theorem closingAndRecoveryEnd : Obligations.ClosingAndRecoveryEnd := by
  unfold Obligations.ClosingAndRecoveryEnd
  intro s n hr x
  refine ⟨fun c hx hd hi => ?_, fun c i hx hd hi => ?_, fun r hx => ?_⟩
  · exact (execClosingStopDriven_idle hr hx hd hi).trans (congrArg _ (enterIdle_withSegment ..))
  · exact (execClosingStopDriven_isolated hr hx hd hi).trans (congrArg _ (finishIsolation_withSegment ..))
  · intro answer
    refine ⟨fun hb => ?_, fun hb => ⟨fun pulses hp => ?_, fun hf => ?_, fun hf => ?_⟩⟩
    · show execRecoveryWaitEnd n s = _
      unfold execRecoveryWaitEnd
      rw [act_next _ _ hr]
      simp only [show (s.segment n).state = .recovering r from hx]
      rfl
    · refine (execRecoveryAttemptEnd_success hr hx hb hp).trans ?_
      simp only [recoverySucceeds, answer]
      cases r.requestedBy <;> rfl
    · have hlt : (s.segment n).failedAttempts + 1 < Config.recoveryAttempts := Nat.succ_lt_succ hf
      refine (execRecoveryAttemptEnd_failure hr hx hb).trans ?_
      simp only [recoveryFails, if_pos hlt]
      rfl
    · have hge : ¬ (s.segment n).failedAttempts + 1 < Config.recoveryAttempts := by
        rw [show (s.segment n).failedAttempts = 2 from hf]; decide
      refine (execRecoveryAttemptEnd_failure hr hx hb).trans ?_
      simp only [recoveryFails, if_neg hge, enterIsolated, arbiterIsolation_eq, modSegment_eq,
        withSegment_segment_same, withSegment_withSegment, answer]
      cases r.requestedBy <;> rfl
end Sys2Proof.Machine
end

section
/-! PROOFS. Line faults, and what an isolation leaves to a port without a request. -/

namespace Sys2Proof.Machine

/-! ### Counters and measurements of a segment otherwise as x says -/

section withSegment

variable (n : SegId) (x : Segment) (s : State)

@[simp] theorem countFault_withSegment :
    countFault n (withSegment n x s) = withSegment n { x with faults := satInc x.faults } s := by
  simp [countFault, modSegment_eq]
@[simp] theorem countDeparture_withSegment :
    countDeparture n (withSegment n x s) = withSegment n { x with aborts := satInc x.aborts } s := by
  simp [countDeparture, modSegment_eq]

end withSegment

theorem closingFault_withSegment (n : SegId) (c : ClosingRec) (x : Segment) (s : State) :
    closingFault n c (withSegment n x s) = match c.isolation with
      | none => afterFault n none x s
      | some i => isolatedByCommand n i x s := by
  unfold closingFault
  cases c.isolation with
  | none => exact faultTransition_withSegment ..
  | some i => exact finishIsolation_withSegment ..

/-! ### A port without a request at an isolation -/

/-- Nothing waiting is granted to a port that has no request: an examination leaves its context (R90). -/
theorem examineFrom_other (p : Port) (older rest : List Request) (s : State)
    (ho : ∀ r ∈ older, r.port ≠ p) (hr : ∀ r ∈ rest, r.port ≠ p) :
    (examineFrom older rest s).context p = s.context p ∧ NoRequest (examineFrom older rest s) p := by
  induction rest generalizing older s with
  | nil => exact ⟨rfl, ho⟩
  | cons r rest ih =>
    have hrest : ∀ r' ∈ rest, r'.port ≠ p := fun r' h => hr r' (List.mem_cons_of_mem _ h)
    have hrp : r.port ≠ p := hr r List.mem_cons_self
    rw [examineFrom_cons]
    split
    · obtain ⟨hc, hn⟩ := ih older (granted r.port r.segments s) ho hrest
      refine ⟨hc.trans ?_, hn⟩
      exact (get_set ..).trans (if_neg hrp.symm)
    · refine ih (older ++ [r]) s (fun r' h => ?_) hrest
      rcases List.mem_append.mp h with h | h
      · exact ho r' h
      · rw [List.mem_singleton.mp h]; exact hrp

theorem examine_other (p : Port) (s : State) (h : NoRequest s p) :
    (examine s).context p = s.context p ∧ NoRequest (examine s) p :=
  examineFrom_other p [] s.waitList s (by simp) h

@[simp] theorem deniedState_context (i : RouteId) (s : State) (p : Port) :
    (deniedState i s).context p = s.context p := rfl
@[simp] theorem deniedState_waitList (i : RouteId) (s : State) : (deniedState i s).waitList = s.waitList := rfl
@[simp] theorem refusedState_waitList (p : Port) (s : State) : (refusedState p s).waitList = s.waitList := rfl

/-- The denial of a phase leaves the context of the other port and the wait list (R69). -/
theorem deniedPhase_other (p k : Port) (kind : EventKind) (seg : Option SegId) (s : State) (h : k ≠ p) :
    (deniedPhase k kind seg s).context p = s.context p ∧
      (deniedPhase k kind seg s).waitList = s.waitList := by
  have hc : (refusedState k s).context p = s.context p := (get_set ..).trans (if_neg h.symm)
  unfold deniedPhase
  cases (s.context k).route <;> dsimp only <;> (repeat' split) <;> simp [hc]

theorem requestIsolated_other (p : Port) (n : SegId) (r : Request) (s : State) (h : r.port ≠ p)
    (hw : NoRequest s p) :
    (requestIsolated n r s).context p = s.context p ∧ NoRequest (requestIsolated n r s) p := by
  unfold requestIsolated
  split
  · obtain ⟨hc, hl⟩ := deniedPhase_other p r.port .denySegmentDown (some n)
      { s with waitList := s.waitList.filter fun o => o.port != r.port } h
    refine ⟨hc, fun o ho => hw o ?_⟩
    rw [hl] at ho
    exact (List.mem_filter.mp ho).1
  · refine ⟨rfl, fun o ho => ?_⟩
    obtain ⟨o', ho', rfl⟩ := List.mem_map.mp ho
    split <;> exact hw o' ho'

/-- The isolation of a segment reaches only ports whose request waits (R93). -/
theorem isolationMet_other (p : Port) (n : SegId) (s : State) (h : NoRequest s p) :
    (isolationMet n s).context p = s.context p ∧ NoRequest (isolationMet n s) p := by
  have fold : ∀ (named : List Request) (u : State), (∀ r ∈ named, r.port ≠ p) → NoRequest u p →
      (named.foldl (fun u r => requestIsolated n r u) u).context p = u.context p ∧
        NoRequest (named.foldl (fun u r => requestIsolated n r u) u) p := by
    intro named
    induction named with
    | nil => exact fun u _ hu => ⟨rfl, hu⟩
    | cons r named ih =>
      intro u hn hu
      obtain ⟨hc, hr⟩ := requestIsolated_other p n r u (hn r List.mem_cons_self) hu
      obtain ⟨hc', hr'⟩ := ih (requestIsolated n r u) (fun o ho => hn o (List.mem_cons_of_mem _ ho)) hr
      exact ⟨hc'.trans hc, hr'⟩
  have named : ∀ r ∈ s.waitList.filter fun r => segMem r.segments n, r.port ≠ p :=
    fun r hr => h r (List.mem_filter.mp hr).1
  unfold isolationMet
  split
  · exact ⟨rfl, h⟩
  · obtain ⟨hc, hr⟩ := fold _ s named h
    obtain ⟨hc', hr'⟩ := examine_other p _ hr
    exact ⟨hc'.trans hc, hr'⟩

theorem afterFault_other (p : Port) (n : SegId) (holder : Option Port) (x : Segment) (s : State)
    (h : NoRequest s p) :
    (afterFault n holder x s).context p = s.context p ∧ NoRequest (afterFault n holder x s) p := by
  unfold afterFault
  split
  · exact ⟨rfl, h⟩
  · obtain ⟨hc, hn⟩ := isolationMet_other p n (raise ⟨.segmentIsolated, holder, some n, none, none, 3⟩
      (withSegment n { x with state := .isolated, quiet := none } s)) (by simpa [NoRequest] using h)
    exact ⟨hc.trans (by simp), hn⟩

/-- Settles O50: the measurement, the event and the counters come first, then the way out of the state. -/
theorem lineFaults : Obligations.LineFaults := by
  unfold Obligations.LineFaults
  intro s n line hr x limit detail l faulted run s1
  have hm : stuckMeasured n line s = withSegment n { x with lines := l } s := by cases line <;> rfl
  have hdetail : lineDetail line = detail := by cases line <;> rfl
  have hrun : run = execStuckLineFault n line s := rfl
  unfold execStuckLineFault at hrun
  rw [act_next _ _ hr] at hrun
  refine ⟨fun hx => ?_, fun hx => ?_, fun h hx hd hc hw => ?_, fun c hx hd => ?_⟩
  · show act _ s = _
    rw [act_next _ _ hr, if_pos hx]
    cases line <;> simp [measure, modSegment_eq, Segment.toUnsynced, x]
  · have hfault : faultTransition n none (countFault n
        (raise (segmentEvent .segmentFault none n (lineDetail line)) (stuckMeasured n line s))) =
        afterFault n none faulted s1 := by
      rw [hm, hdetail, raise_withSegment, countFault_withSegment, faultTransition_withSegment]
      rfl
    rw [hrun, ← hfault]
    rcases hx with hx | hx <;> simp only [show (s.segment n).state = _ from hx]
  · have hfault : faultTransition n (some h.port) (countDeparture n (countFault n
        (raise (phaseEvent .segmentFault h.port (some n) (lineDetail line) (stuckMeasured n line s))
          (stuckMeasured n line s)))) =
        afterFault n (some h.port) { faulted with aborts := satInc x.aborts }
          (raise ⟨.segmentFault, some h.port, some n, (s.context h.port).upstream,
            (s.context h.port).route, detail⟩ s) := by
      rw [hm, hdetail, raise_withSegment, countFault_withSegment, countDeparture_withSegment,
        faultTransition_withSegment]
      rfl
    intro c
    obtain ⟨hcontext, hno⟩ := afterFault_other h.port n (some h.port) { faulted with aborts := satInc x.aborts }
      (raise ⟨.segmentFault, some h.port, some n, c.upstream, c.route, detail⟩ s)
      (by simpa [NoRequest] using hw)
    rw [hrun, ← abort_eq h.port .downFault _ (by rw [hcontext, raise_context]; exact hc) hno, ← hfault]
    simp only [show (s.segment n).state = _ from hx, if_pos hd]
  · have hfault : closingFault n c (countFault n
        (raise (segmentEvent .segmentFault none n (lineDetail line)) (stuckMeasured n line s))) =
        match c.isolation with
        | none => afterFault n none faulted s1
        | some i => isolatedByCommand n i faulted s1 := by
      rw [hm, hdetail, raise_withSegment, countFault_withSegment, closingFault_withSegment]
      rfl
    rw [hrun]
    simp only [show (s.segment n).state = _ from hx, if_pos hd]
    exact congrArg _ hfault
end Sys2Proof.Machine
end

section
/-! PROOFS. Starts and stops the device did not drive. -/

namespace Sys2Proof.Machine

/-! ### Foreign starts and stops -/

/-- The segment after a condition: no bits taken, the line-low measurements anew (R2, R12). -/
def Segment.afterCondition (x : Segment) : Segment :=
  { x with bits := 0, lines := ⟨x.lines.heldInterval, 0, 0, 0⟩ }

theorem conditionSeen_eq (n : SegId) (s : State) :
    conditionSeen n s = withSegment n (s.segment n).afterCondition s := rfl

/-- A segment bus error on a held segment, otherwise as x says, aborts its holder (R83, R134). -/
theorem heldBusError_withSegment (n : SegId) (h : HeldRec) (stop : Bool) (x : Segment) (s : State)
    (hc : (s.context h.port).state.holding = true) (hw : NoRequest s h.port) :
    heldBusError n h stop (withSegment n x s) = abortedState h.port
      (raise ⟨.segmentBusError, some h.port, some n, (s.context h.port).upstream,
        (s.context h.port).route, conditionDetail stop⟩
        (withSegment n { x with state := .unsynced, aborts := satInc x.aborts
                                quiet := if stop then some x.inUse.quiet else none } s)) := by
  have hs : modSegment n (·.toUnsynced stop) (countDeparture n (raise (phaseEvent .segmentBusError h.port (some n)
      (conditionDetail stop) (withSegment n x s)) (withSegment n x s))) =
      raise ⟨.segmentBusError, some h.port, some n, (s.context h.port).upstream,
        (s.context h.port).route, conditionDetail stop⟩
        (withSegment n { x with state := .unsynced, aborts := satInc x.aborts
                                quiet := if stop then some x.inUse.quiet else none } s) := by
    rw [raise_withSegment, countDeparture_withSegment, modSegment_eq, withSegment_segment_same,
      withSegment_withSegment, raise_withSegment]
    rfl
  rw [heldBusError, hs, abort_eq h.port .downFault _ (by rw [raise_context]; exact hc) (by simpa [NoRequest] using hw)]

/-- A closing that ends in UNSYNCED or, with an isolation pending, in ISOLATED (R135, R136). -/
theorem closingToUnsynced_withSegment (n : SegId) (c : ClosingRec) (high : Bool) (x : Segment) (s : State) :
    closingToUnsynced n c high (withSegment n x s) = match c.isolation with
      | none => withSegment n { x with state := .unsynced, quiet := if high then some x.inUse.quiet else none } s
      | some i => isolatedByCommand n i x s := by
  unfold closingToUnsynced
  cases c.isolation with
  | none => simp [modSegment_eq, Segment.toUnsynced]
  | some i => exact finishIsolation_withSegment ..

theorem closingBusError_withSegment (n : SegId) (c : ClosingRec) (stop : Bool) (x : Segment) (s : State) :
    closingBusError n c stop (withSegment n x s) = closingToUnsynced n c stop (withSegment n x
      (raise ⟨.segmentBusError, none, some n, none, none, conditionDetail stop⟩ s)) := by
  rw [closingBusError, raise_withSegment]; rfl

/-- A loss at the start of a segment that opens its address phase (R130). -/
theorem execArbitrationLoss_opening {n : SegId} {h : HeldRec} {u : State} (hr : u.resetActive = false)
    (hx : (u.segment n).state = .held h) (hd : h.deferred = false) (hg : (u.path h.port).stage = .address)
    (ho : (u.path h.port).outcomes[n] = some .pending) :
    execArbitrationLoss n .address u = .next (loseAddress n h u) := by
  have hn : ¬ (h.deferred = true ∨ (u.path h.port).outcomes[n] ≠ some .pending) := by
    rintro (k | k)
    · rw [hd] at k; cases k
    · exact k ho
  unfold execArbitrationLoss
  rw [act_next _ _ hr]
  simp only [hx]
  rw [if_neg hn, if_pos hg]

/-- Settles O49: the condition clears the bits and the measurements, then acts by the state. -/
theorem foreignStartsAndStops : Obligations.ForeignStartsAndStops := by
  unfold Obligations.ForeignStartsAndStops
  intro s n hr x0 x start stop watching error
  have hstart : start = execSegmentStartSeen n s := rfl
  have hstop : stop = execSegmentStopSeen n s := rfl
  unfold execSegmentStartSeen at hstart
  unfold execSegmentStopSeen at hstop
  rw [act_next _ _ hr, conditionSeen_eq] at hstart hstop
  refine ⟨fun hx => ?_, fun hx => ?_, fun hx => ?_, fun hx => ?_, fun hx => ?_, fun h hx hd hq => ?_,
    fun h hx hd hs hq => ?_, fun h hx hd hc hw => ?_, fun c hx hd hi => ?_, fun c i hx hd hi => ?_,
    fun c hx hd => ?_, fun r hx => ?_⟩
  · rw [hstart]
    rcases hx with hx | hx <;> simp only [show (s.segment n).state = _ from hx] <;>
      simp [modSegment_eq] <;> rfl
  · rw [hstart]
    simp only [show (s.segment n).state = _ from hx]; rfl
  · rw [hstop]
    rcases hx with hx | hx <;> simp only [show (s.segment n).state = _ from hx] <;>
      simp [modSegment_eq] <;> rfl
  · rw [hstop]
    simp only [show (s.segment n).state = _ from hx]; rfl
  · rw [hstart, hstop]
    simp only [show (s.segment n).state = _ from hx]; exact ⟨rfl, rfl⟩
  · have hquiet : (s.segment n).afterCondition.quiet = x.quiet := rfl
    have hwaits : (s.segment n).afterCondition.waitsForRelease h = false := by
      cases hs : h.winnerStop with
      | false => simp [Segment.waitsForRelease, hs]
      | true => simpa [Segment.waitsForRelease, hquiet, hs, Option.isSome_iff_ne_none] using hq hs
    rw [hstart, hstop]
    simp only [show (s.segment n).state = _ from hx, if_pos hd, modSegment_eq, withSegment_segment_same,
      withSegment_withSegment, hwaits, Bool.false_eq_true, if_false]
    exact ⟨rfl, rfl⟩
  · have hquiet : (s.segment n).afterCondition.quiet = x.quiet := rfl
    have hwaits : (s.segment n).afterCondition.waitsForRelease h = true := by
      simpa [Segment.waitsForRelease, hquiet, hs] using hq
    rw [hstart, hstop]
    simp only [show (s.segment n).state = _ from hx, if_pos hd, modSegment_eq, withSegment_segment_same,
      withSegment_withSegment, hwaits, if_true]
    exact ⟨rfl, rfl⟩
  · intro c departs opening chosen
    have hdeparts : ∀ stop u, u.contexts = s.contexts → u.waitList = s.waitList →
        heldBusError n h stop (withSegment n (s.segment n).afterCondition u) =
          departs (conditionDetail stop) (if stop then some x.inUse.quiet else none) u := by
      intro stop u hu hl
      have hcontext : u.context h.port = c := by rw [State.context, hu]; rfl
      rw [heldBusError_withSegment _ _ _ _ _ (by rw [hcontext]; exact hc) (by rw [NoRequest, hl]; exact hw),
        hcontext]
      rfl
    have hopening : (withSegment n (s.segment n).afterCondition s).openingPending n h = true ↔ opening := by
      simp only [State.openingPending, withSegment_path, Bool.and_eq_true, beq_iff_eq]
      rfl
    have hstart' : start = .next (heldForeignStart n h (withSegment n (s.segment n).afterCondition s)) := by
      rw [hstart]
      simp only [show (s.segment n).state = _ from hx, hd, Bool.false_eq_true, if_false]
    refine ⟨fun ho => ?_, fun ho => ?_, ?_⟩
    · rw [hstart', heldForeignStart_error _ _ _ (by simpa using mt hopening.mp ho), hdeparts false s rfl rfl]
      rfl
    · rw [hstart']
      cases hf : Config.foreignStartFirst s.freeChoices with
      | true =>
        rw [heldForeignStart_first _ _ _ (hopening.mpr ho) hf, if_pos rfl]
        refine (execArbitrationLoss_opening (u := withSegment n x chosen) hr ?_ hd ho.1 ho.2).symm
        rw [withSegment_segment_same]; exact hx
      | false =>
        rw [heldForeignStart_later _ _ _ (hopening.mpr ho) hf, if_neg (by decide)]
        exact congrArg _ (hdeparts false chosen rfl rfl)
    · rw [hstop]
      simp only [show (s.segment n).state = _ from hx, hd, Bool.false_eq_true, if_false]
      exact congrArg _ (hdeparts true s rfl rfl)
  · rw [hstart, hstop]
    simp only [show (s.segment n).state = _ from hx, hd, Bool.false_eq_true, if_false, closingBusError_withSegment,
      closingToUnsynced_withSegment, hi]
    exact ⟨rfl, rfl⟩
  · rw [hstart, hstop]
    simp only [show (s.segment n).state = _ from hx, hd, Bool.false_eq_true, if_false, closingBusError_withSegment,
      closingToUnsynced_withSegment, hi]
    exact ⟨rfl, rfl⟩
  · rw [hstart, hstop]
    simp only [show (s.segment n).state = _ from hx, if_pos hd, closingToUnsynced_withSegment]
    exact ⟨rfl, rfl⟩
  · rw [hstart, hstop]
    simp only [show (s.segment n).state = _ from hx, recoveryToForeign]
    refine ⟨?_, rfl⟩
    cases r.requestedBy <;> simp only [modSegment_eq, withSegment_segment_same, withSegment_withSegment] <;> rfl
end Sys2Proof.Machine
end

section
/-! PROOFS. The address decision up to the lookup, and the address no entry matches. -/

namespace Sys2Proof.Machine

/-! ### The address decision up to the lookup (R46, R66) -/

theorem takeAddress_eq (p : Port) (addr : Addr) (dir : Direction) (s : State) :
    takeAddress p addr dir s = takenAddress p addr dir s := rfl

/-- The pin requested and the management records dropped: the context searches its bank (R46). -/
theorem requestPin_eq (p : Port) (s : State) : requestPin p (leaveManagement p s) = searching p s := by
  have hc : (leaveManagement p s).context p = s.context p := modRecord_context ..
  unfold requestPin searching
  cases h : (s.context p).pin with
  | some g => simp [hc, h]; rfl
  | none => simp [hc, h]; rfl

/-- A routed address is decided in the searching state (R66, R68). -/
theorem execAddress_routed (p : Port) (addr : Addr) (dir : Direction) (s : State) (h : AddressReported s p)
    (ha : addr ≠ (s.record p).effAddr) :
    execAddress p addr dir s = .next (decideRoute p addr dir (takenAddress p addr dir s)) := by
  rw [execAddress, reported_next _ _ _ h.1, if_pos h.2, takeAddress_eq]
  exact congrArg _ (if_neg ha)

theorem decideRoute_noMatch (p : Port) (addr : Addr) (dir : Direction) (s : State)
    (h : lookup (searchedBank p (searching p s)) p addr = none) :
    decideRoute p addr dir s = decideNoMatch p (searching p s) := by
  simp only [decideRoute, requestPin_eq, bankOf_eq, h]

/-- What is written where the address is searched: the management records and, without a pin, the pin. -/
theorem searching_pinned (p : Port) (s : State) :
    ∃ g, searching p s =
      withRecord p { s.record p with reception := none, readCopy := none }
        (withContext p { s.context p with pin := some g }
          { s with table := (searching p s).table }) := by
  cases h : (s.context p).pin with
  | some g =>
    have hc : { s.context p with pin := some g } = s.context p := by rw [← h]
    refine ⟨g, ?_⟩
    rw [hc]
    simp only [searching, withRecord_context, h]
    cases p <;> rfl
  | none =>
    refine ⟨s.table.activeGen, ?_⟩
    simp only [searching, withRecord_context, h]
    cases p <;> rfl

/-- A pin taken for the search and given back leaves the pin counts as they were (R47). -/
theorem unpinnedTable_searching (p : Port) (s : State) :
    unpinnedTable p (searching p s) = unpinnedTable p s := by
  cases h : (s.context p).pin with
  | some g => simp [searching, unpinnedTable, h]
  | none => simp [searching, unpinnedTable, h, TableControl.releasePin]

/-- Settles O36: the pin requested for the search is released with the rest. -/
theorem unmatchedAddressIgnored : Obligations.UnmatchedAddressIgnored := by
  unfold Obligations.UnmatchedAddressIgnored
  intro s p addr dir h ha hl r low byte
  have table : unpinnedTable p (takenAddress p addr dir s) = unpinnedTable p s := by cases p <;> rfl
  obtain ⟨g, hs⟩ := searching_pinned p (takenAddress p addr dir s)
  show execAddress p addr dir s = _
  rw [execAddress_routed p addr dir s h ha, decideRoute_noMatch p addr dir _ hl, decideNoMatch,
    leaveForwarding_eq, forwardingLeft, unpinnedTable_searching, table]
  generalize (searching p (takenAddress p addr dir s)).table = t at hs
  rw [hs]
  cases p <;> rfl
end Sys2Proof.Machine
end

section
/-! PROOFS. A repeated start within the held set: the checks passed, the admission and the kept segments. -/

namespace Sys2Proof.Machine

/-! ### Sets of segments (R184) -/

theorem getLsbD_one_shiftLeft (m n : SegId) : (1#8 <<< m.val).getLsbD n.val = decide (n = m) := by
  revert n m; decide

theorem getLsbD_foldl_segments (f : SegId → Bool) (n : SegId) (l : List SegId) (set : SegSet) :
    (l.foldl (fun set n => if f n then set ||| (1#8 <<< n.val) else set) set).getLsbD n.val =
      (set.getLsbD n.val || (decide (n ∈ l) && f n)) := by
  induction l generalizing set with
  | nil => simp
  | cons m l ih =>
    rw [List.foldl_cons, ih]
    by_cases hnm : n = m
    · subst hnm
      cases hf : f n
      · simp
      · simp only [if_true, BitVec.getLsbD_or, getLsbD_one_shiftLeft]
        simp
    · cases f m
      · simp [hnm]
      · simp only [if_true, BitVec.getLsbD_or, getLsbD_one_shiftLeft]
        simp [hnm]

@[simp] theorem segMem_segSetOf (f : SegId → Bool) (n : SegId) : segMem (segSetOf f) n = f n := by
  rw [segMem, segSetOf, getLsbD_foldl_segments]
  simp [mem_segIds]

theorem segSet_ext {a b : SegSet} (h : ∀ n, segMem a n = segMem b n) : a = b :=
  BitVec.eq_of_getLsbD_eq fun i hi => h ⟨i, hi⟩

@[simp] theorem segMem_heldSet (s : State) (p : Port) (n : SegId) : segMem (s.heldSet p) n = s.holds p n :=
  segMem_segSetOf ..

/-- A set within the held set leaves nothing outside it. -/
theorem outside_heldSet (s : State) (p : Port) (set : SegSet) (h : ∀ n, segMem set n = true → s.holds p n = true) :
    set &&& ~~~(s.heldSet p) = 0 := by
  refine segSet_ext fun n => ?_
  have hn := h n
  rw [← segMem_heldSet] at hn
  unfold segMem at hn ⊢
  cases hs : set.getLsbD n.val <;> simp_all

/-! ### The checks of an address phase (R26, R29, R34, R70) -/

/-- Without an ISOLATED member the whole set is available (R70). -/
theorem available_of_none (s : State) (g : SegSet)
    (h : ((segMembers g).find? fun n => (s.segment n).state == .isolated) = none) : s.available g = g := by
  refine segSet_ext fun n => ?_
  rw [State.available, segMem_segSetOf]
  cases hg : segMem g n with
  | false => rfl
  | true =>
    have hm : n ∈ segMembers g := List.mem_filter.mpr ⟨mem_segIds n, hg⟩
    have := List.find?_eq_none.mp h n hm
    simp_all

theorem directionRefused_iff (f : Profile) (dir : Direction) (addr : Addr) :
    directionRefused f dir addr = true ↔
      (dir = .write ∧ f.writeAllowed = false) ∨ (dir = .read ∧ (f.readAllowed = false ∨ addr = 0)) := by
  cases dir <;> simp [directionRefused]

theorem chainingPasses_iff (bank : Bank) (old : Context) (i : RouteId) :
    chainingPasses bank old i = true ↔
      ¬ (old.state.forwarding ∧ old.route ≠ some i ∧
        ∃ k ∈ old.policy, (bank.profiles[k]).chaining = false) := by
  cases hp : old.policy <;> simp [chainingPasses, hp]
  all_goals grind

theorem routeAggregation_any_iff (g : SegSet) (f : Profile) :
    routeAggregation g f = .any ↔ ¬ (segSingle g = true ∨ f.fanOut = .all) := by
  unfold routeAggregation
  cases segSingle g <;> cases f.fanOut <;> simp

/-- What no check refuses passes each of them (R66). -/
theorem refusal_none {old : Context} {dir : Direction} {addr : Addr} {i : RouteId} {bank : Bank} {g : SegSet}
    {policy : ProfileId} {s : State} (h : refusal old dir addr i bank g policy s = none) :
    chainingPasses bank old i = true ∧ directionRefused bank.profiles[policy] dir addr = false ∧
      claimSet s g (routeAggregation g bank.profiles[policy]) = .ok (s.available g) ∧
      ((s.table.active.profiles[policy]).creditMax ≠ 0 → (s.credits[policy]).count ≠ 0) := by
  unfold refusal at h
  dsimp only at h
  split at h
  · cases h
  next chain =>
  split at h
  · cases h
  next direction =>
  refine ⟨(chainingPasses_iff ..).mpr chain, ?_, ?_⟩
  · rw [← Bool.not_eq_true, directionRefused_iff]
    exact direction
  unfold claimSet
  split at h
  next n hn =>
    split at h
    · cases h
    next up =>
    split at h
    · cases h
    next credit =>
    rw [not_or, not_or] at up
    refine ⟨?_, fun hc hz => credit ⟨hc, hz⟩⟩
    simp only [hn]
    rw [if_pos ⟨(routeAggregation_any_iff ..).mpr (fun h => h.elim up.1 up.2.1), up.2.2⟩]
  next hn =>
    split at h
    · cases h
    next credit =>
    exact ⟨by simp only [hn, available_of_none s g hn], fun hc hz => credit ⟨hc, hz⟩⟩

/-- A profile with a credit left, or without a limit, admits (R34). -/
theorem requestCredit_admits {f : Profile} {c : Credit} (h : f.creditMax ≠ 0 → c.count ≠ 0) :
    (requestCredit f c).1 = true := by
  unfold requestCredit
  by_cases hm : f.creditMax = 0
  · rw [if_pos hm]
  · rw [if_neg hm, if_neg (h hm)]

/-! ### A claim that keeps its segments (R72, R94, R100, R129) -/

/-- The segments of a claim made by a repeated start within the held set. -/
def keptSegment (p : Port) (set : SegSet) (q : Path) (n : SegId) (x : Segment) : Segment :=
  match x.state with
  | .held h =>
    if h.port ≠ p then x
    else if segMem set n then
      { x with state := .held { h with tries := 0, deferred := false, winnerStop := false,
                                       completion := q.completionOf n, opening := .repeatedStart },
               bits := 0 }
    else x.released false (q.completionOf n)
  | _ => x

/-- The members left out are released and the kept ones begin anew, segment by segment. -/
theorem keepSegments_segment {p : Port} {set : SegSet} {u : State} (n : SegId)
    (h : segMem set n = true → u.holds p n = true) :
    (keepSegments p set u).segment n = keptSegment p set (u.path p) n (u.segment n) := by
  have run : (keepSegments p set u).segment n =
      let x := (releaseSegments p false (segMem set) u).segment n
      if segMem set n then
        (x.modHeld fun h =>
          { h with tries := 0, deferred := false, winnerStop := false,
                   completion := (u.path p).completionOf n, opening := .repeatedStart }).noBits
      else x := modSegments_segment ..
  rw [run, releaseSegments_segment]
  rw [holds_iff] at h
  unfold keptSegment
  cases hm : segMem set n with
  | true =>
    have hheld := h hm
    unfold Segment.heldBy at hheld
    split at hheld
    next k hk => simp_all [Segment.modHeld, Segment.noBits]
    · cases hheld
  | false =>
    simp only [and_true, Bool.false_eq_true, if_false]
    unfold Segment.heldBy
    split <;> simp_all

/-- A context, a path and the segments changed in a state that differs only in its segments. -/
theorem modContext_modPath_modSegments {u v : State} (hv : v = { u with segments := v.segments }) (p : Port)
    (c : Context → Context) (q : Path → Path) (f : SegId → Segment → Segment) :
    modContext p c (modPath p q (modSegments f v)) =
      { u with contexts := u.contexts.set p (c (u.context p))
               paths := u.paths.set p (q (u.path p))
               segments := (modContext p c (modPath p q (modSegments f v))).segments } := by
  rw [hv]
  rfl

theorem keepSegments_eq (p : Port) (set : SegSet) (u : State)
    (h : ∀ n, segMem set n = true → u.holds p n = true) :
    keepSegments p set u = { u with
      contexts := u.contexts.set p { u.context p with state := .addressing }
      paths := u.paths.set p ((u.path p).toAddress set)
      segments := Vector.ofFn fun n => keptSegment p set (u.path p) n (u.segment n) } := by
  have segs : (keepSegments p set u).segments =
      Vector.ofFn fun n => keptSegment p set (u.path p) n (u.segment n) := by
    rw [← ofFn_segment]
    exact congrArg _ (funext fun n => keepSegments_segment n (h n))
  rw [← segs]
  unfold keepSegments
  exact modContext_modPath_modSegments (v := releaseSegments p false (segMem set) u) rfl p
    (fun c => { c with state := .addressing }) (·.toAddress set) _

/-- Within the held set of a forwarding context the claim keeps its segments (R72). -/
theorem placeClaim_kept (p : Port) (c : Claim) (set : SegSet) (s : State)
    (hf : (s.context p).state.forwarding = true) (h : ∀ n, segMem set n = true → s.holds p n = true) :
    placeClaim p c set s = keepSegments p set
      (withPath p { s.path p with claim := some c, sums := Vector.replicate 8 0 }
        (withContext p { s.context p with waitTimer := some (s.record p).waitLimit } s)) :=
  if_pos ⟨hf, outside_heldSet s p set h⟩

/-- The credit, the count, the trace and the wait timer of an admitted phase (R34, R71, R72). -/
theorem admitted_eq (p : Port) (policy : ProfileId) (f : Profile) (claim : Claim) (s : State)
    (h : (s.table.active.profiles[policy]).creditMax ≠ 0 → (s.credits[policy]).count ≠ 0) :
    admitted p policy f claim s =
      let left := (requestCredit s.table.active.profiles[policy] s.credits[policy]).2
      withPath p { s.path p with claim := some claim, sums := Vector.replicate 8 0 }
        (withContext p { s.context p with phaseCount := some 0, traceOwed := f.logTransactions,
                                          waitTimer := some (s.record p).waitLimit }
          { s with credits := s.credits.set policy left }) := by
  unfold admitted requestCredit
  dsimp only
  by_cases hm : (s.table.active.profiles[policy]).creditMax = 0
  · have same : s.credits.set policy s.credits[policy] = s.credits := Vector.set_getElem_self ..
    rw [if_pos hm, if_neg (not_not.mpr hm), same]
  · rw [if_neg hm, if_pos hm, if_neg (h hm)]
    rfl

@[simp] theorem admitted_segment (p : Port) (policy : ProfileId) (f : Profile) (claim : Claim) (s : State)
    (n : SegId) : (admitted p policy f claim s).segment n = s.segment n := by
  unfold admitted
  dsimp only
  split <;> rfl

/-- An admitted phase within the held set (R34, R71, R72). -/
theorem decideForward_kept (p : Port) (addr : Addr) (dir : Direction) (old : Context) (i : RouteId) (g : SegSet)
    (t : Addr) (policy : ProfileId) (bank : Bank) (e : RouteEntry) (s : State)
    (hr : refusal old dir addr i bank g policy s = none) (hf : (s.context p).state.forwarding = true)
    (h : ∀ n, segMem (s.available g) n = true → s.holds p n = true) :
    decideForward p addr dir (chainingPasses bank old i) e g t policy bank.profiles[policy] s =
      keepSegments p (s.available g)
        (admitted p policy bank.profiles[policy] (claimOf addr dir e g t bank.profiles[policy]) s) := by
  obtain ⟨chain, direction, available, credit⟩ := refusal_none hr
  unfold decideForward
  simp only [chain, direction, available]
  rw [if_neg (by decide), if_neg (by decide), if_neg (by rw [requestCredit_admits credit]; decide),
    placeClaim_kept, admitted_eq _ _ _ _ _ credit]
  · refine congrArg (keepSegments p _) (congr (congrArg (withPath p) ?_) ?_)
    · rfl
    · rw [modContext_eq, withContext_withContext, withContext_context_same]
      refine congr (congrArg (withContext p) ?_) ?_
      · rfl
      · rfl
  · rw [modContext_context_same]
    exact hf
  · exact h

/-! ### The state an entry is selected in (R36, R68) -/

/-- The hit counted for a pin on the active generation (R36). -/
theorem hitCounted_eq (p : Port) (i : RouteId) (s : State) :
    (if s.table.pinActive (s.context p).pin then countHit i s else s) = hitCounted p i s := by
  unfold hitCounted TableControl.pinActive
  exact if_congr beq_iff_eq rfl rfl

theorem decideRoute_forward (p : Port) (addr : Addr) (dir : Direction) (i : RouteId) (g : SegSet) (t : Addr)
    (f : ProfileId) (s : State) (hl : lookup (searchedBank p (searching p s)) p addr = some i)
    (he : ((searchedBank p (searching p s)).entries[i]).action = .forward g t f) :
    decideRoute p addr dir s =
      let bank := searchedBank p (searching p s)
      let u := hitCounted p i (searching p s)
      decideForward p addr dir (chainingPasses bank (s.context p) i) bank.entries[i] g t f bank.profiles[f]
        (withContext p { u.context p with route := some i, policy := some f } u) := by
  simp only [decideRoute, requestPin_eq, bankOf_eq, hl, he, hitCounted_eq]
  rfl

section selected

variable (p : Port) (addr : Addr) (dir : Direction) (i : RouteId) (policy : Option ProfileId) (s : State)

theorem hitCounted_frame : hitCounted p i s = { s with table := (hitCounted p i s).table } := by
  unfold hitCounted
  split <;> rfl

/-- What is written where an entry is selected: the address, the pin, the route, the policy, the management
records and the table. -/
theorem selected_eq : ∃ g, selected p addr dir i policy s =
    let t := takenAddress p addr dir s
    withRecord p { t.record p with reception := none, readCopy := none }
      (withContext p { t.context p with pin := some g, route := some i, policy := policy }
        { t with table := (selected p addr dir i policy s).table }) := by
  obtain ⟨g, hs⟩ := searching_pinned p (takenAddress p addr dir s)
  refine ⟨g, ?_⟩
  have hh := hitCounted_frame p i (searching p (takenAddress p addr dir s))
  have table : (selected p addr dir i policy s).table =
    (hitCounted p i (searching p (takenAddress p addr dir s))).table := rfl
  rw [table]
  unfold selected
  generalize (hitCounted p i (searching p (takenAddress p addr dir s))).table = k at hh
  rw [hh, hs]
  cases p <;> rfl

@[simp] theorem selected_segment (n : SegId) : (selected p addr dir i policy s).segment n = s.segment n := by
  obtain ⟨g, hs⟩ := selected_eq p addr dir i policy s
  rw [hs]
  rfl

theorem selected_state : ((selected p addr dir i policy s).context p).state = (s.context p).state := by
  obtain ⟨g, hs⟩ := selected_eq p addr dir i policy s
  rw [hs]
  cases p <;> rfl

@[simp] theorem selected_holds (n : SegId) : (selected p addr dir i policy s).holds p n = s.holds p n := by
  rw [State.holds, selected_segment]
  rfl

@[simp] theorem selected_available (g : SegSet) : (selected p addr dir i policy s).available g = s.available g := by
  simp only [State.available, selected_segment]

/-- No check reads what the selection of the entry writes. -/
theorem refusal_selected (old : Context) (bank : Bank) (g : SegSet) (f : ProfileId) :
    refusal old dir addr i bank g f (selected p addr dir i policy s) =
      refusal old dir addr i bank g f (searching p (takenAddress p addr dir s)) := by
  unfold selected hitCounted
  split <;> rfl

end selected

/-- Settles O39: no check refuses, so the claim keeps its segments. -/
theorem repeatedStartKeepsSegments : Obligations.RepeatedStartKeepsSegments := by
  unfold Obligations.RepeatedStartKeepsSegments
  intro s p addr dir i g t f h ha hf looked bank hl he hr hin claim set u
  have refused : refusal (s.context p) dir addr i bank g f (selected p addr dir i (some f) s) = none := by
    rw [refusal_selected]
    exact hr
  have forwarding : ((selected p addr dir i (some f) s).context p).state.forwarding = true := by
    rw [selected_state]
    exact hf
  have chaining : chainingPasses bank ((takenAddress p addr dir s).context p) i =
      chainingPasses bank (s.context p) i := by cases p <;> rfl
  have admittedSegment : ∀ n, u.segment n = s.segment n := by simp [u]
  show execAddress p addr dir s = _
  rw [execAddress_routed p addr dir s h ha, decideRoute_forward p addr dir i g t f _ hl he]
  refine congrArg _ ?_
  show decideForward p addr dir (chainingPasses bank _ i) bank.entries[i] g t f bank.profiles[f]
    (selected p addr dir i (some f) s) = _
  rw [chaining, decideForward_kept _ _ _ _ _ _ _ _ _ _ _ refused forwarding (by simpa using hin),
    selected_available]
  show keepSegments p set u = _
  rw [keepSegments_eq]
  · simp only [admittedSegment]
    rfl
  · intro n hn
    rw [State.holds, admittedSegment]
    exact hin n hn
end Sys2Proof.Machine
end

section
/-! PROOFS. CONTEXT RESET: the pins released, both contexts cleared, and the rest of the device. -/

namespace Sys2Proof.Machine

/-! ### The pins still to be released (R47, R48, R55) -/

/-- The pin counts are those of the listed pins, and the controller drains exactly while one of them is on
the retiring generation. -/
structure PinsLeft (t : TableControl) (pins : List (BitVec 16)) : Prop where
  active : t.activePins = pins.count t.activeGen
  retiring : match t.retiringGen with
    | some g => g ≠ t.activeGen ∧ t.state = .draining ∧ t.retiringPins = pins.count g ∧ 0 < t.retiringPins
    | none => t.state ≠ .draining ∧ t.retiringPins = 0
  known : ∀ g ∈ pins, pinAgrees t g

theorem releasePin_active {t : TableControl} : t.releasePin t.activeGen = { t with activePins := t.activePins - 1 } :=
  if_pos rfl

theorem releasePin_retiring {t : TableControl} {g : BitVec 16} (ha : g ≠ t.activeGen) (hd : t.state = .draining)
    (hg : t.retiringGen = some g) :
    t.releasePin g =
      if t.retiringPins ≤ 1 then { t with retiringPins := 0, state := .copying, retiringGen := none }
      else { t with retiringPins := t.retiringPins - 1 } := by
  rw [TableControl.releasePin, if_neg ha, if_pos ⟨hd, hg⟩]

/-- The release of one pin leaves the others. -/
theorem pinsLeft_releasePin {t : TableControl} {g : BitVec 16} {pins : List (BitVec 16)}
    (h : PinsLeft t (g :: pins)) : PinsLeft (t.releasePin g) pins := by
  obtain ⟨active, retiring, known⟩ := h
  have rest : ∀ k ∈ pins, pinAgrees t k := fun k hk => known k (List.mem_cons_of_mem _ hk)
  by_cases ha : g = t.activeGen
  · subst ha
    rw [releasePin_active]
    refine ⟨by simp [active], ?_, rest⟩
    cases hg : t.retiringGen with
    | none => simpa [hg] using retiring
    | some r =>
      simp only [hg] at retiring ⊢
      obtain ⟨hne, hd, hcount, hpos⟩ := retiring
      exact ⟨hne, hd, by rw [hcount, List.count_cons_of_ne hne.symm], hpos⟩
  · obtain ⟨hd, hg⟩ := (known g List.mem_cons_self).resolve_left ha
    simp only [hg] at retiring
    obtain ⟨-, -, hcount, -⟩ := retiring
    rw [List.count_cons_self] at hcount
    rw [List.count_cons_of_ne ha] at active
    rw [releasePin_retiring ha hd hg]
    split
    next last =>
      have gone : g ∉ pins := List.count_eq_zero.mp (by omega)
      refine ⟨active, ⟨by simp, rfl⟩, fun k hk => ?_⟩
      refine .inl ((rest k hk).resolve_right fun ⟨_, hk'⟩ => gone ?_)
      rw [hg] at hk'
      cases hk'
      exact hk
    next more =>
      refine ⟨active, ?_, rest⟩
      simp only [hg]
      exact ⟨ha, hd, by omega, by omega⟩

/-- With no pin left the counts are 0 and nothing drains. -/
theorem pinsLeft_nil {t : TableControl} (h : PinsLeft t []) :
    t.activePins = 0 ∧ t.retiringPins = 0 ∧ t.retiringGen = none ∧ t.state ≠ .draining := by
  obtain ⟨active, retiring, -⟩ := h
  cases hg : t.retiringGen with
  | none =>
    simp only [hg] at retiring
    exact ⟨active, retiring.2, rfl, retiring.1⟩
  | some g =>
    simp only [hg, List.count_nil] at retiring
    omega

/-- A pin, if any, released. -/
def TableControl.unpin (t : TableControl) (pin : Option (BitVec 16)) : TableControl :=
  match pin with
  | some g => t.releasePin g
  | none => t

theorem unpinnedTable_eq (p : Port) (s : State) : unpinnedTable p s = s.table.unpin (s.context p).pin := rfl

theorem pinsLeft_unpin {t : TableControl} {pin : Option (BitVec 16)} {pins : List (BitVec 16)}
    (h : PinsLeft t (pin.toList ++ pins)) : PinsLeft (t.unpin pin) pins := by
  cases pin with
  | none => exact h
  | some g => exact pinsLeft_releasePin h

/-- A release of a pin changes the pin counts, and at the last retiring pin ends DRAINING (R55). -/
theorem unpin_frame (t : TableControl) (pin : Option (BitVec 16)) :
    let u := t.unpin pin
    u = { t with activePins := u.activePins, retiringPins := u.retiringPins, retiringGen := u.retiringGen
                 state := u.state } ∧
      (u.state = t.state ∨ (t.state = .draining ∧ u.state = .copying)) := by
  cases pin with
  | none => exact ⟨rfl, .inl rfl⟩
  | some g =>
    dsimp only [TableControl.unpin]
    unfold TableControl.releasePin
    split
    · exact ⟨rfl, .inl rfl⟩
    split
    next draining =>
      split
      · exact ⟨rfl, .inr ⟨draining.1, rfl⟩⟩
      · exact ⟨rfl, .inl rfl⟩
    · exact ⟨rfl, .inl rfl⟩

/-- Two pins, the only ones, released: the table as it was but for the counts and DRAINING (R47, R55). -/
theorem unpin_both {t : TableControl} {x y : Option (BitVec 16)} (h : PinsLeft t (x.toList ++ y.toList)) :
    (t.unpin x).unpin y =
      { t with activePins := 0, retiringPins := 0, retiringGen := none
               state := if t.state = .draining then .copying else t.state } := by
  have left : PinsLeft ((t.unpin x).unpin y) [] := by
    refine pinsLeft_unpin (pins := []) ?_
    rw [List.append_nil]
    exact pinsLeft_unpin h
  obtain ⟨ha, hp, hg, hd⟩ := pinsLeft_nil left
  obtain ⟨fx, sx⟩ := unpin_frame t x
  obtain ⟨fy, sy⟩ := unpin_frame (t.unpin x) y
  have hstate : ((t.unpin x).unpin y).state = if t.state = .draining then .copying else t.state := by
    grind
  rw [fy, ha, hp, hg, hstate, fx]

/-- Where the records agree, the pins of the two contexts are the only ones. -/
theorem pinsLeft_of_agreement {s : State} (h : Agreement s) (p : Port) :
    PinsLeft s.table ((s.context (otherPort p)).pin.toList ++ (s.context p).pin.toList) := by
  obtain ⟨⟨ha, hb⟩, hactive, hretiring⟩ := h
  have both : ((s.context (otherPort p)).pin.toList ++ (s.context p).pin.toList).Perm
      ((s.context .a).pin.toList ++ (s.context .b).pin.toList) := by
    cases p with
    | a => exact List.perm_append_comm
    | b => exact List.Perm.refl _
  have one (x : Option (BitVec 16)) (g : BitVec 16) : x.toList.count g = if x = some g then 1 else 0 := by
    cases x <;> simp [List.count_singleton]
  have counts (g : BitVec 16) : pinCount s g =
      ((s.context (otherPort p)).pin.toList ++ (s.context p).pin.toList).count g := by
    rw [both.count_eq, List.count_append, one, one, pinCount]
  simp only [counts] at hretiring
  refine ⟨by rw [hactive, counts], hretiring, fun g hg => ?_⟩
  rw [both.mem_iff, List.mem_append, Option.mem_toList, Option.mem_toList] at hg
  exact hg.elim (ha.generation g) (hb.generation g)

/-! ### One context at CONTEXT RESET (R85, R119, R145) -/

/-- CONTEXT RESET aborts a context unless it is IDLE or ABORTED or executes the issuing write (R85). -/
def CtxState.resetKeeps (issuing : Bool) (c : CtxState) : Bool :=
  c == .idle || c == .aborted || (issuing && c == .mgmtWrite)

theorem resetKeeps_iff (issuing : Bool) (c : CtxState) :
    c.resetKeeps issuing = true ↔
      AbortReason.reset.reaches c = false ∨ (issuing = true ∧ c = .mgmtWrite) := by
  simp only [CtxState.resetKeeps, AbortReason.reaches, Bool.or_eq_true, Bool.and_eq_true, beq_iff_eq,
    Bool.and_eq_false_iff, bne_eq_false_iff_eq]

/-- A context that is not aborted holds neither a pin nor a segment (R62, R65). -/
theorem not_pinned_of_resetKeeps {issuing : Bool} {c : CtxState} (h : c.resetKeeps issuing = true) :
    c.pinned = false ∧ c.holding = false := by
  cases c <;> simp [CtxState.resetKeeps, CtxState.pinned, CtxState.holding, CtxState.forwarding] at h ⊢

/-- The engine of a context after the reset, its clock released with the byte shifter kept (R4, R83). -/
def Engine.afterReset (e : Engine) (kept : Bool) : Engine :=
  if kept then e else { unheldEngine e with shifter := e.shifter }

/-- The path of a context after the reset (R119). -/
def Path.afterReset (q : Path) (kept : Bool) : Path := if kept then q else q.toEmpty

/-- The effects of the reset of one context. -/
def contextCleared (p : Port) (issuing : Bool) (s : State) : State :=
  let kept := (s.context p).state.resetKeeps issuing
  withRecord p { s.record p with reception := none, readCopy := none }
    (withEngine p ((s.engine p).afterReset kept)
      (withPath p ((s.path p).afterReset kept)
        (withContext p Context.idle
          { s with table := unpinnedTable p s, segments := releasedSegments p true s })))

theorem releasedSegments_of_none {p : Port} {byAbort : Bool} {s : State} (h : ∀ n, s.holds p n = false) :
    releasedSegments p byAbort s = s.segments := by
  have kept : (fun n => if (s.segment n).heldBy = some p then
      (s.segment n).released byAbort ((s.path p).completionOf n) else s.segment n) = s.segment :=
    funext fun n => if_neg fun hn => by
      rw [← holds_iff, h n] at hn
      cases hn
  rw [releasedSegments, kept]
  exact ofFn_segment s

/-- A context that CONTEXT RESET does not abort holds no pin and no segment. -/
theorem resetContext_eq (p : Port) (issuing : Bool) (s : State) (hw : NoRequest s p)
    (hpin : (s.context p).pin.isSome = (s.context p).state.pinned)
    (hheld : ∀ n, s.holds p n = true → (s.context p).state.holding = true) :
    resetContext p issuing s = contextCleared p issuing s := by
  cases hk : (s.context p).state.resetKeeps issuing with
  | true =>
    obtain ⟨unpinned, unheld⟩ := not_pinned_of_resetKeeps hk
    have unchanged : (if issuing ∧ (s.context p).state = .mgmtWrite then s else abortForReset p s) = s := by
      split
      · rfl
      next own => exact abortForReset_unreached p s (((resetKeeps_iff ..).mp hk).resolve_right own)
    have pin : unpinnedTable p s = s.table := by
      rw [unpinned, Option.isSome_eq_false_iff, Option.isNone_iff_eq_none] at hpin
      rw [unpinnedTable_eq, hpin]
      rfl
    have noSegment : ∀ n, s.holds p n = false := by
      intro n
      by_contra hn
      rw [hheld n (Bool.not_eq_false _ ▸ hn)] at unheld
      cases unheld
    rw [resetContext, unchanged, contextCleared, hk, pin, releasedSegments_of_none noSegment]
    cases p <;> rfl
  | false =>
    obtain ⟨reached, own⟩ : AbortReason.reset.reaches (s.context p).state = true ∧
        ¬ (issuing = true ∧ (s.context p).state = .mgmtWrite) := by
      rwa [← Bool.not_eq_true, resetKeeps_iff, not_or, Bool.not_eq_false] at hk
    rw [resetContext, if_neg own, abortForReset_eq p s reached hw, contextCleared, hk]
    cases p <;> rfl

/-! ### Both contexts at CONTEXT RESET -/

theorem released_heldBy (x : Segment) (byAbort : Bool) (c : Completion) : (x.released byAbort c).heldBy = none := by
  cases hx : x.state with
  | held h =>
    cases hd : h.deferred with
    | false => rw [released_inControl _ _ hx hd]; rfl
    | true =>
      cases hw : h.winnerStop with
      | false => rw [released_deferred _ _ hx hd hw]; rfl
      | true => rw [released_winnerStop _ _ hx hd hw]; rfl
  | _ => rw [released_notHeld _ _ (by simp [hx]), Segment.heldBy, hx]

theorem contextCleared_segment (p : Port) (issuing : Bool) (s : State) (n : SegId) :
    (contextCleared p issuing s).segment n =
      if (s.segment n).heldBy = some p then (s.segment n).released true ((s.path p).completionOf n)
      else s.segment n := Vector.getElem_ofFn ..

/-- A segment after both contexts are cleared: a held one released by its holder's abort (R117, R145). -/
def Segment.cleared (x : Segment) (c : Port → Completion) : Segment :=
  match x.heldBy with
  | some k => x.released true (c k)
  | none => x

/-- Both contexts cleared, the other port's first. -/
def contextsCleared (p : Port) (s : State) : State :=
  contextCleared p true (contextCleared (otherPort p) false { s with waitList := [] })

section contextsCleared

variable (p : Port) (s : State)

theorem resetContexts_eq (h : Agreement s) :
    resetContext p true (resetContext (otherPort p) false { s with waitList := [] }) = contextsCleared p s := by
  have port : ∀ k, PortAgrees s k := fun k => match k with | .a => h.ports.1 | .b => h.ports.2
  have context : (contextCleared (otherPort p) false { s with waitList := [] }).context p = s.context p := by
    cases p <;> rfl
  have held : ∀ n, (contextCleared (otherPort p) false { s with waitList := [] }).holds p n = true →
      s.holds p n = true := by
    intro n hn
    rw [holds_iff, contextCleared_segment] at hn
    split at hn
    · rw [released_heldBy] at hn
      cases hn
    · exact (holds_iff ..).mpr hn
  rw [resetContext_eq (otherPort p) false { s with waitList := [] } (List.forall_mem_nil _) (port _).pin
      (port _).held,
    resetContext_eq p true _ (List.forall_mem_nil _)]
  · rfl
  · rw [context]
    exact (port p).pin
  · intro n hn
    rw [context]
    exact (port p).held n (held n hn)

theorem contextsCleared_context (r : Port) : (contextsCleared p s).context r = Context.idle := by
  cases p <;> cases r <;> rfl

theorem contextsCleared_engine (r : Port) : (contextsCleared p s).engine r =
    (s.engine r).afterReset ((s.context r).state.resetKeeps (r == p)) := by
  cases p <;> cases r <;> rfl

theorem contextsCleared_path (r : Port) : (contextsCleared p s).path r =
    (s.path r).afterReset ((s.context r).state.resetKeeps (r == p)) := by
  cases p <;> cases r <;> rfl

theorem contextsCleared_record (r : Port) : (contextsCleared p s).record r =
    { s.record r with reception := none, readCopy := none } := by
  cases p <;> cases r <;> rfl

theorem contextsCleared_table : (contextsCleared p s).table =
    (s.table.unpin (s.context (otherPort p)).pin).unpin (s.context p).pin := by
  cases p <;> rfl

theorem contextsCleared_segment (n : SegId) : (contextsCleared p s).segment n =
    (s.segment n).cleared fun k => (s.path k).completionOf n := by
  have path : (contextCleared (otherPort p) false { s with waitList := [] }).path p = s.path p := by
    cases p <;> rfl
  have first := contextCleared_segment (otherPort p) false { s with waitList := [] } n
  rw [show State.segment { s with waitList := [] } n = s.segment n from rfl] at first
  rw [contextsCleared, contextCleared_segment, path, Segment.cleared]
  cases hk : (s.segment n).heldBy with
  | none =>
    rw [hk, if_neg nofun] at first
    rw [first, hk, if_neg nofun]
  | some k =>
    rw [hk] at first
    by_cases hp : k = p
    · subst hp
      rw [if_neg (by simpa using (otherPort_ne k).symm)] at first
      rw [first, hk, if_pos rfl]
    · have hq : k = otherPort p := by
        revert hp
        cases k <;> cases p <;> decide
      rw [if_pos (congrArg some hq)] at first
      rw [first, released_heldBy, if_neg nofun, hq]
      rfl

end contextsCleared

/-! ### The rest of the device at CONTEXT RESET (R170) -/

theorem emptyLog_eq (s : State) :
    emptyLog s = { s with log := ⟨[], s.log.nextSequence, 0, s.log.timestamp, ⟨false, false⟩⟩ } := rfl

/-- The segments, the log, the credits and the table after the resets of the contexts. -/
def blocksCleared (u : State) : State :=
  modTable (fun t =>
    { t with hits := Vector.replicate 64 0, denials := Vector.replicate 64 0,
             copyBack := t.copyBack.map CopyBack.unowed })
    (resetCredits (emptyLog (modSegments (fun _ x => resetSegment x) u)))

/-- What follows the resets of the contexts, the responses last. -/
def deviceCleared (p : Port) (u : State) : State :=
  dropReception p (respond p .ok [] (respondFinal (otherPort p) .none [] (blocksCleared u)))

theorem exec_contextReset (p : Port) (s : State) (ha : Accepts s p) (hf : FullRights s p) (h : Agreement s) :
    exec (.contextReset p) s = .next (deviceCleared p (contextsCleared p s)) := by
  show command p .contextReset [] s = _
  rw [command_accepted _ _ _ _ ha, executeCommand_full _ _ _ _ hf]
  show Host.Outcome.next (dropReception p (opContextReset p s)) = _
  rw [opContextReset, resetContexts_eq p s h, deviceCleared, blocksCleared]


theorem resetKeeps_port_iff (p r : Port) (c : CtxState) :
    c.resetKeeps (r == p) = true ↔ c = .idle ∨ c = .aborted ∨ (r = p ∧ c = .mgmtWrite) := by
  simp [CtxState.resetKeeps, or_assoc]

section deviceCleared

variable (p : Port) (u : State)

theorem blocksCleared_eq : blocksCleared u =
    { u with
      segments := Vector.ofFn fun n => resetSegment (u.segment n)
      log := ⟨[], u.log.nextSequence, 0, u.log.timestamp, ⟨false, false⟩⟩
      credits := Vector.ofFn fun i => ⟨(u.table.active.profiles[i]).creditMax, (u.credits[i]).timer⟩
      table := { u.table with
        hits := Vector.replicate 64 0, denials := Vector.replicate 64 0
        copyBack := u.table.copyBack.map CopyBack.unowed } } := by
  simp only [blocksCleared, modSegments, emptyLog_eq, resetCredits, modTable, State.segment]

theorem blocksCleared_record (r : Port) : (blocksCleared u).record r = u.record r := by
  rw [blocksCleared_eq]
  rfl

theorem deviceCleared_record_same : (deviceCleared p u).record p =
    { u.record p with response := ⟨.ok, []⟩, reception := none } := by
  rw [deviceCleared, dropReception, modRecord_record_same, respond, modRecord_record_same, respondFinal,
    modRecord_record, if_neg (otherPort_ne p).symm, blocksCleared_record]

theorem deviceCleared_record_other : (deviceCleared p u).record (otherPort p) =
    { u.record (otherPort p) with response := ⟨.none, []⟩, command := none } := by
  rw [deviceCleared, dropReception, modRecord_record, if_neg (otherPort_ne p), respond, modRecord_record,
    if_neg (otherPort_ne p), respondFinal, modRecord_record_same, blocksCleared_record]

theorem deviceCleared_context (r : Port) : (deviceCleared p u).context r = u.context r := by
  rw [deviceCleared, dropReception, respond, respondFinal, modRecord_context, modRecord_context, modRecord_context,
    blocksCleared_eq]
  rfl

theorem deviceCleared_path (r : Port) : (deviceCleared p u).path r = u.path r := by
  rw [deviceCleared, dropReception, respond, respondFinal, modRecord_path, modRecord_path, modRecord_path,
    blocksCleared_eq]
  rfl

theorem deviceCleared_engine (r : Port) : (deviceCleared p u).engine r = u.engine r := by
  rw [deviceCleared, dropReception, respond, respondFinal, modRecord_engine, modRecord_engine, modRecord_engine,
    blocksCleared_eq]
  rfl

theorem deviceCleared_segment (n : SegId) : (deviceCleared p u).segment n = resetSegment (u.segment n) :=
  Vector.getElem_ofFn ..

theorem deviceCleared_credits (i : ProfileId) : (deviceCleared p u).credits[i] =
    ⟨(u.table.active.profiles[i]).creditMax, (u.credits[i]).timer⟩ :=
  Vector.getElem_ofFn ..

end deviceCleared

section resetSegment

variable {x : Segment} (c : Port → Completion)

theorem cleared_held {h : HeldRec} (hx : x.state = .held h) : x.cleared c = x.released true (c h.port) := by
  rw [Segment.cleared, Segment.heldBy, hx]

theorem cleared_notHeld (hx : ∀ h, x.state ≠ .held h) : x.cleared c = x := by
  rw [Segment.cleared, Segment.heldBy]
  split
  next hk => split at hk <;> simp_all
  · rfl

variable (x)

/-- A segment at CONTEXT RESET, by the state the reset found it in (R136, R145). -/
theorem resetSegment_cleared_state :
    let y := resetSegment (x.cleared c)
    match x.state with
    | .unsynced | .idle | .foreign | .recovering _ => y.state = .unsynced ∧ y.quiet = some x.inUse.quiet
    | .closing c => y.state = .closing { c with isolation := c.isolation.map fun i => ⟨i.port, false⟩ }
    | .held h =>
      if h.deferred ∧ h.winnerStop then y.state = .unsynced ∧ y.quiet = some x.inUse.quiet
      else y.state = .closing ⟨h.deferred, h.tries, if h.deferred then .none else c h.port, none⟩
    | .isolated => y.state = .isolated := by
  dsimp only
  cases hx : x.state with
  | held h =>
    rw [cleared_held c hx]
    cases hd : h.deferred with
    | false => simp [released_inControl _ _ hx hd, resetSegment, hd]
    | true =>
      cases hw : h.winnerStop with
      | false => simp [released_deferred _ _ hx hd hw, resetSegment, hd, hw]
      | true => simp [released_winnerStop _ _ hx hd hw, resetSegment, Segment.toUnsynced, hd, hw]
  | closing k =>
    rw [cleared_notHeld c (by simp [hx])]
    simp only [resetSegment, hx]
    rfl
  | isolated => rw [cleared_notHeld c (by simp [hx]), resetSegment]; simp only [hx]
  | _ => rw [cleared_notHeld c (by simp [hx])]; simp [resetSegment, hx, Segment.toUnsynced]

theorem released_kept (byAbort : Bool) (k : Completion) :
    let y := x.released byAbort k
    y.stored = x.stored ∧ y.inUse = x.inUse ∧ y.lines = x.lines ∧ y.bits = x.bits := by
  dsimp only
  unfold Segment.released Segment.toUnsynced
  cases byAbort <;> grind

/-- What CONTEXT RESET keeps of a segment, and its counters (R145). -/
theorem resetSegment_kept :
    let y := resetSegment x
    y.stored = x.stored ∧ y.inUse = x.inUse ∧ y.lines = x.lines ∧ y.bits = x.bits ∧
      y.grants = 0 ∧ y.aborts = 0 ∧ y.arbLosses = 0 ∧ y.faults = 0 ∧ y.recoveries = 0 ∧
      y.failedAttempts = 0 := by
  dsimp only [resetSegment]
  cases x.state <;> simp [Segment.toUnsynced]

theorem cleared_kept :
    let y := x.cleared c
    y.stored = x.stored ∧ y.inUse = x.inUse ∧ y.lines = x.lines ∧ y.bits = x.bits := by
  dsimp only [Segment.cleared]
  split
  · exact released_kept x true _
  · exact ⟨rfl, rfl, rfl, rfl⟩

end resetSegment

theorem onPorts_of_forall {f : Port → Prop} (h : ∀ r, f r) : OnPorts f := ⟨h .a, h .b⟩

/-- The end of a held clock touches neither the tracker nor the bits (R4). -/
theorem unheldEngine_frame (e : Engine) :
    (unheldEngine e).hold = .none ∧ (unheldEngine e).tracker = e.tracker ∧ (unheldEngine e).bits = e.bits := by
  unfold unheldEngine
  cases h : e.hold <;> simp [h]

/-- The port records after the reset: no reception, no copy, no command context (R145, R153, R154). -/
theorem contextReset_record (p r : Port) (s : State) (hc : (s.record p).command = none) :
    ∃ response, (deviceCleared p (contextsCleared p s)).record r =
      { s.record r with reception := none, readCopy := none, response := response, command := none } := by
  have hr : r = p ∨ r = otherPort p := by cases r <;> cases p <;> decide
  rcases hr with rfl | rfl
  · rw [deviceCleared_record_same, contextsCleared_record]
    exact ⟨⟨.ok, []⟩, by rw [← hc]⟩
  · rw [deviceCleared_record_other, contextsCleared_record]
    exact ⟨⟨.none, []⟩, rfl⟩

/-- Without held segments the path is EMPTY (R99). -/
theorem stage_empty {c : CtxState} {g : Stage} (h : stageAgrees c g = true) (hc : c.holding = false) :
    g = .empty := by
  cases g with
  | empty => rfl
  | _ => cases c <;> simp [stageAgrees, CtxState.holding, CtxState.forwarding] at h hc

/-- Settles O31: each context is cleared as its state says, and with both pins released nothing drains. -/
theorem contextResetClears : Obligations.ContextResetClears := by
  unfold Obligations.ContextResetClears
  intro s p ha hf h q
  have hq : q = otherPort p := rfl
  clear_value q
  subst hq
  generalize hu : contextsCleared p s = u
  have table : u.table = { s.table with
      activePins := 0, retiringPins := 0, retiringGen := none
      state := if s.table.state = .draining then .copying else s.table.state } := by
    rw [← hu, contextsCleared_table, unpin_both (pinsLeft_of_agreement h p)]
  have active : u.table.active = s.table.active := by rw [table]; rfl
  have segment (n : SegId) : (deviceCleared p u).segment n = 
      resetSegment ((s.segment n).cleared fun k => (s.path k).completionOf n) := by
    rw [deviceCleared_segment, ← hu, contextsCleared_segment]
  refine ⟨deviceCleared p u, hu ▸ exec_contextReset p s ha hf h, ?_, ?_, ?_, ?_, ?_, ?_, ?_, ?_, ?_⟩
  · refine onPorts_of_forall fun r => ?_
    obtain ⟨response, record⟩ := contextReset_record p r s ha.2
    rw [hu] at record
    have agrees : PortAgrees s r := match r with | .a => h.ports.1 | .b => h.ports.2
    obtain ⟨hold, tracker, bits⟩ := unheldEngine_frame (s.engine r)
    dsimp only
    rw [record, deviceCleared_context, deviceCleared_path, deviceCleared_engine, ← hu, contextsCleared_context,
      contextsCleared_path, contextsCleared_engine]
    have rule := resetKeeps_port_iff p r (s.context r).state
    cases kept : (s.context r).state.resetKeeps (r == p) with
    | true =>
      obtain ⟨unpinned, unheld⟩ := not_pinned_of_resetKeeps kept
      have empty := stage_empty agrees.stage unheld
      rw [if_pos (rule.mp kept)]
      refine ⟨rfl, empty, rfl, rfl, ⟨rfl, rfl⟩, fun held => ?_, rfl, rfl, rfl, rfl, rfl, rfl, rfl, rfl, rfl, rfl⟩
      rw [unpinned] at held
      cases held
    | false =>
      rw [if_neg fun hk => by rw [rule.mpr hk] at kept; cases kept]
      exact ⟨rfl, rfl, rfl, rfl, ⟨rfl, rfl⟩, fun _ => hold, tracker, bits, rfl, rfl, rfl, rfl, rfl, rfl, rfl, rfl⟩
  · rw [deviceCleared_record_same]
  · rw [deviceCleared_record_other]
  · rw [← hu]; rfl
  · intro n
    simp only [segment]
    refine ⟨resetSegment_cleared_state (s.segment n) fun k => (s.path k).completionOf n, ?_⟩
    obtain ⟨stored, inUse, lines, bits⟩ := cleared_kept (s.segment n) fun k => (s.path k).completionOf n
    have kept := resetSegment_kept ((s.segment n).cleared fun k => (s.path k).completionOf n)
    rwa [stored, inUse, lines, bits] at kept
  · rw [← hu]; cases p <;> rfl
  · intro i
    rw [deviceCleared_credits, active, ← hu]
    cases p <;> rfl
  · intro i
    exact ⟨Vector.getElem_replicate .., Vector.getElem_replicate ..⟩
  · have final : (deviceCleared p u).table = { u.table with
        hits := Vector.replicate 64 0, denials := Vector.replicate 64 0
        copyBack := u.table.copyBack.map CopyBack.unowed } := rfl
    rw [final, table]
    refine ⟨rfl, rfl, rfl, rfl, rfl, rfl, rfl, rfl, rfl, ?_⟩
    cases s.table.copyBack <;> rfl
end Sys2Proof.Machine
end

section
/-! PROOFS. Lookup, translation and validation of the route entries. -/

namespace Sys2Proof.Machine

-- One thread at a time elaborates this part: the compile stays within the check's memory.
set_option Elab.async false

/-! ### The first index of a search (R21, R41) -/

theorem pairwise_lt_split {n : Nat} {l₁ l₂ : List (Fin n)} {i : Fin n}
    (h : List.finRange n = l₁ ++ i :: l₂) (j : Fin n) : j ∈ l₁ ↔ j < i := by
  have sorted : (l₁ ++ i :: l₂).Pairwise (· < ·) := h ▸ List.pairwise_lt_finRange n
  obtain ⟨-, after, before⟩ := List.pairwise_append.mp sorted
  refine ⟨fun hj => before j hj i List.mem_cons_self, fun hj => ?_⟩
  have all : j ∈ l₁ ++ i :: l₂ := h ▸ List.mem_finRange j
  rcases List.mem_append.mp all with hj' | hj'
  · exact hj'
  · rcases List.mem_cons.mp hj' with rfl | hj'
    · exact absurd hj (lt_irrefl _)
    · exact absurd ((List.pairwise_cons.mp after).1 j hj') (lt_asymm hj)

/-- A search over the indices in order answers with the lowest one that has an answer. -/
theorem findSome?_finRange_eq_some {n : Nat} {α : Type} (f : Fin n → Option α) (i : Fin n) (x : α)
    (hf : ∀ j y, f j = some y → y = x → j = i) :
    (List.finRange n).findSome? f = some x ↔ f i = some x ∧ ∀ j < i, f j = none := by
  rw [List.findSome?_eq_some_iff]
  constructor
  · rintro ⟨l₁, k, l₂, hl, hk, hnone⟩
    obtain rfl := hf k x hk rfl
    exact ⟨hk, fun j hj => hnone j ((pairwise_lt_split hl j).mpr hj)⟩
  · rintro ⟨hi, hnone⟩
    obtain ⟨l₁, l₂, hl⟩ := List.append_of_mem (List.mem_finRange i)
    exact ⟨l₁, i, l₂, hl, hi, fun j hj => hnone j ((pairwise_lt_split hl j).mp hj)⟩

theorem find?_finRange_eq_some {n : Nat} (p : Fin n → Bool) (i : Fin n) :
    (List.finRange n).find? p = some i ↔ p i = true ∧ ∀ j < i, ¬ p j = true := by
  rw [List.find?_eq_some_iff_append]
  constructor
  · rintro ⟨hi, l₁, l₂, hl, hnone⟩
    exact ⟨hi, fun j hj => by simpa using hnone j ((pairwise_lt_split hl j).mpr hj)⟩
  · rintro ⟨hi, hnone⟩
    obtain ⟨l₁, l₂, hl⟩ := List.append_of_mem (List.mem_finRange i)
    exact ⟨hi, l₁, l₂, hl, fun j hj => by simpa using hnone j ((pairwise_lt_split hl j).mp hj)⟩

/-! ### Matching and translation, bit by bit (R20, R22) -/

theorem and_eq_and_iff {w : Nat} (a b m : BitVec w) :
    a &&& m = b &&& m ↔ ∀ k : Fin w, m.getLsbD k.val = true → a.getLsbD k.val = b.getLsbD k.val := by
  constructor
  · intro h k hm
    have bit := congrArg (fun x : BitVec w => x.getLsbD k.val) h
    simpa only [BitVec.getLsbD_and, hm, Bool.and_true] using bit
  · intro h
    refine BitVec.eq_of_getLsbD_eq fun i hi => ?_
    rw [BitVec.getLsbD_and, BitVec.getLsbD_and]
    cases hm : m.getLsbD i with
    | false => simp
    | true => rw [h ⟨i, hi⟩ hm]

theorem hits_iff (e : RouteEntry) (p : Port) (addr : Addr) :
    e.hits p addr = true ↔ e.valid = true ∧ e.hasPort p = true ∧ addr &&& e.mask = e.matchAddr &&& e.mask := by
  simp [RouteEntry.hits, RouteEntry.inMatchSet, and_assoc]

theorem lookup_eq_some_iff (b : Bank) (p : Port) (addr : Addr) (i : RouteId) :
    lookup b p addr = some i ↔
      (b.entries[i]).hits p addr = true ∧ ∀ j < i, ¬ (b.entries[j]).hits p addr = true :=
  find?_finRange_eq_some (fun j : RouteId => (b.entries[j]).hits p addr) i

theorem lookup_eq_none_iff (b : Bank) (p : Port) (addr : Addr) :
    lookup b p addr = none ↔ ∀ j : RouteId, ¬ (b.entries[j]).hits p addr = true := by
  simp only [lookup, List.find?_eq_none, List.mem_finRange, true_imp_iff]

theorem translated_bit (mask translate addr : Addr) (k : Fin 7) :
    (translated mask translate addr).getLsbD k.val =
      if mask.getLsbD k.val then translate.getLsbD k.val else addr.getLsbD k.val := by
  have hk : decide (k.val < 7) = true := decide_eq_true k.isLt
  rw [translated, BitVec.getLsbD_or, BitVec.getLsbD_and, BitVec.getLsbD_and, BitVec.getLsbD_not, hk]
  cases mask.getLsbD k.val <;> simp only [Bool.and_true, Bool.and_false, Bool.not_true, Bool.not_false,
    Bool.or_false, Bool.false_or, if_true, Bool.false_eq_true, if_false]

/-- The image of the match set: the addresses that agree with the translate value under the mask (R22). -/
theorem mem_image_iff (mask translate matchAddr down : Addr) :
    (∃ up : Addr, up &&& mask = matchAddr &&& mask ∧ translated mask translate up = down) ↔
      down &&& mask = translate &&& mask := by
  constructor
  · rintro ⟨up, -, rfl⟩
    rw [and_eq_and_iff]
    intro k hm
    rw [translated_bit, if_pos hm]
  · intro h
    refine ⟨translated mask matchAddr down, ?_, ?_⟩
    · rw [and_eq_and_iff]
      intro k hm
      rw [translated_bit, if_pos hm]
    · refine BitVec.eq_of_getLsbD_eq fun i hi => ?_
      rw [translated_bit mask translate _ ⟨i, hi⟩, translated_bit mask matchAddr _ ⟨i, hi⟩]
      split
      next hm => exact ((and_eq_and_iff ..).mp h ⟨i, hi⟩ hm).symm
      · rfl

/-- Settles O32: lookup is a search in ascending order, and both matching and translation act bit by bit. -/
theorem lookupAndTranslation : Obligations.LookupAndTranslation := by
  unfold Obligations.LookupAndTranslation
  refine ⟨fun b p addr i => ?_, fun mask translate addr =>
    ⟨translated_bit mask translate addr, fun matchAddr down => mem_image_iff ..⟩⟩
  have rule : ∀ j : RouteId, (b.entries[j]).hits p addr = true ↔ (b.entries[j]).valid = true ∧
      (b.entries[j]).hasPort p = true ∧ ∀ k : Fin 7, (b.entries[j]).mask.getLsbD k.val = true →
        addr.getLsbD k.val = (b.entries[j]).matchAddr.getLsbD k.val := by
    intro j
    rw [hits_iff, and_eq_and_iff]
  have found := lookup_eq_some_iff b p addr i
  have absent := lookup_eq_none_iff b p addr
  simp only [rule] at found absent
  cases p
  · exact ⟨found, absent⟩
  · exact ⟨found, absent⟩

/-! ### The checks of validation (R39, R40) -/

theorem segSet_eq_zero_iff (g : SegSet) : g = 0 ↔ ∀ n : SegId, segMem g n = false := by
  constructor
  · rintro rfl n
    simp [segMem]
  · intro h
    exact segSet_ext fun n => by rw [h n]; simp [segMem]

theorem mem_segMembers (g : SegSet) (n : SegId) : n ∈ segMembers g ↔ segMem g n = true := by
  simp [segMembers, mem_segIds]

theorem segMembers_nodup (g : SegSet) : (segMembers g).Nodup := List.Nodup.filter _ (by decide)

/-- A fan-out has two members (R28, R39). -/
theorem not_segSingle_iff (g : SegSet) (h : g ≠ 0) :
    segSingle g = false ↔ ∃ n m : SegId, n ≠ m ∧ segMem g n = true ∧ segMem g m = true := by
  have nodup := segMembers_nodup g
  simp only [← mem_segMembers]
  unfold segSingle
  match hg : segMembers g with
  | [] =>
    refine absurd ((segSet_eq_zero_iff g).mpr fun n => ?_) h
    rw [← Bool.not_eq_true, ← mem_segMembers, hg]
    exact List.not_mem_nil
  | [n] =>
    refine ⟨nofun, ?_⟩
    rintro ⟨m, k, hne, hm, hk⟩
    rw [List.mem_singleton] at hm hk
    exact absurd (hm.trans hk.symm) hne
  | n :: m :: l =>
    rw [hg] at nodup
    refine ⟨fun _ => ⟨n, m, ?_, List.mem_cons_self, List.mem_cons_of_mem _ List.mem_cons_self⟩,
      fun _ => by simp⟩
    rintro rfl
    exact (List.nodup_cons.mp nodup).1 List.mem_cons_self

/-- The reserved addresses are those with bits 3 to 6 set (R40). -/
theorem reserved_iff (x : Addr) : 120 ≤ x.toNat ↔ x &&& 0x78 = 0x78 := by
  revert x; decide

/-- Check 4: the greatest address of the image is the one that tells (R40). -/
theorem reservedImage_iff (mask translate : Addr) :
    reservedImage mask translate = true ↔
      ∃ down : Addr, down &&& mask = translate &&& mask ∧ 120 ≤ down.toNat := by
  have bits : ∀ x : Addr, x &&& 0x78 = 0x78 ↔
      ∀ k : Fin 7, (0x78 : Addr).getLsbD k.val = true → x.getLsbD k.val = true := by
    intro x
    rw [show (0x78 : Addr) = 0x78 &&& 0x78 from rfl, ← BitVec.and_assoc,
      and_eq_and_iff (x &&& 0x78)]
    refine forall_congr' fun k => imp_congr_right fun hk => ?_
    have hk' : (0x78 : Addr).getLsbD k.val = true := hk
    rw [BitVec.getLsbD_and, hk', Bool.and_true]
  simp only [reservedImage, beq_iff_eq, reserved_iff, bits]
  constructor
  · intro h
    refine ⟨translate ||| ~~~mask, ?_, h⟩
    rw [and_eq_and_iff]
    intro k hm
    simp [hm]
  · rintro ⟨down, himage, hdown⟩ k hk
    have := (and_eq_and_iff ..).mp himage k
    cases hm : mask.getLsbD k.val with
    | false => rw [BitVec.getLsbD_or, BitVec.getLsbD_not, hm, decide_eq_true k.isLt]; simp
    | true =>
      rw [BitVec.getLsbD_or, ← this hm, hdown k hk, Bool.true_or]

/-- An entry matches address 0 only and forwards it to address 0 (R40). -/
abbrev exactZero (matchAddr mask translate : Addr) : Prop := mask = 0x7F ∧ matchAddr = 0 ∧ translate = 0

theorem zeroMisuse_eq_true_iff (matchAddr mask translate : Addr) :
    zeroMisuse matchAddr mask translate = true ↔
      (matchAddr &&& mask = 0 ∧ ¬ exactZero matchAddr mask translate) ∨
        (translate &&& mask = 0 ∧ matchAddr &&& mask ≠ 0) := by
  simp only [zeroMisuse, exactZero, Bool.or_eq_true, Bool.and_eq_true, Bool.not_eq_true', beq_iff_eq,
    ← Bool.not_eq_true, and_assoc, ne_eq]

/-- Check 5: what it refuses is an address other than 0 forwarded to 0, or address 0 in the match set of any
other entry than the exact one (R40). -/
theorem zeroMisuse_iff (matchAddr mask translate : Addr) :
    zeroMisuse matchAddr mask translate = true ↔
      (∃ up : Addr, up &&& mask = matchAddr &&& mask ∧ up ≠ 0 ∧ translated mask translate up = 0) ∨
        (matchAddr &&& mask = 0 ∧ ¬ exactZero matchAddr mask translate) := by
  have image := mem_image_iff mask translate matchAddr 0
  rw [show (0 : Addr) &&& mask = 0 from BitVec.zero_and] at image
  rw [zeroMisuse_eq_true_iff]
  constructor
  · rintro (zero | ⟨ht, hm⟩)
    · exact .inr zero
    · obtain ⟨up, hup, hdown⟩ := image.mpr ht.symm
      refine .inl ⟨up, hup, ?_, hdown⟩
      rintro rfl
      exact hm (hup.symm.trans BitVec.zero_and)
  · rintro (⟨up, hup, hne, hdown⟩ | zero)
    · by_cases hm : matchAddr &&& mask = 0
      · refine .inl ⟨hm, ?_⟩
        rintro ⟨rfl, rfl, -⟩
        have all : up &&& 0x7F = up := BitVec.and_allOnes
        exact hne (all.symm.trans (hup.trans BitVec.zero_and))
      · exact .inr ⟨(image.mp ⟨up, hup, hdown⟩).symm, hm⟩
    · exact .inl zero

/-! ### Failures of an entry and of a bank (R39 to R41) -/

/-- What a check finds wrong with an entry that has this action, by its reason (R39, R40). -/
def RouteEntry.Faulty (b : Bank) (e : RouteEntry) (reason : Nat) (action : RouteAction) : Prop :=
  match reason, action with
  | 1, _ => e.portA = false ∧ e.portB = false
  | 2, .forward g _ _ => ∀ n : SegId, segMem g n = false
  | 3, .forward g _ f => (∃ n m : SegId, n ≠ m ∧ segMem g n = true ∧ segMem g m = true) ∧
      (b.profiles[f]).readAllowed = true
  | 4, .forward _ t _ => ∃ up : Addr, up &&& e.mask = e.matchAddr &&& e.mask ∧
      120 ≤ (translated e.mask t up).toNat
  | 5, .forward _ t _ => (∃ up : Addr, up &&& e.mask = e.matchAddr &&& e.mask ∧ up ≠ 0 ∧
      translated e.mask t up = 0) ∨ (e.matchAddr &&& e.mask = 0 ∧ ¬ exactZero e.matchAddr e.mask t)
  | _, _ => False

/-- An entry fails validation for a reason (R39, R40). -/
def RouteEntry.fails (b : Bank) (e : RouteEntry) (reason : Nat) : Prop :=
  e.valid = true ∧ e.Faulty b reason e.action

section failure

variable {b : Bank} {e : RouteEntry}

theorem not_fails_zero : ¬ e.fails b 0 := fun h => h.2
theorem not_fails_high {k : Nat} (h : 5 < k) : ¬ e.fails b k := by
  match k, h with
  | k + 6, _ => exact fun h => h.2

theorem not_fails_of_invalid (h : e.valid = false) (k : Nat) : ¬ e.fails b k := fun hf =>
  Bool.false_ne_true (h.symm.trans hf.1)

theorem fails_one (hv : e.valid = true) : e.fails b 1 ↔ e.portA = false ∧ e.portB = false :=
  and_iff_right hv

theorem fails_iff {action : RouteAction} (hv : e.valid = true) (ha : e.action = action) (k : Nat) :
    e.fails b k ↔ e.Faulty b k action := by
  subst ha
  exact and_iff_right hv

theorem not_fails_of_deny (ha : e.action = .deny) {k : Nat} (h : 1 < k) : ¬ e.fails b k := by
  rintro ⟨-, hf⟩
  rw [ha] at hf
  match k, h with
  | 2, _ | 3, _ | 4, _ | 5, _ | k + 6, _ => exact hf

section forward

variable {g : SegSet} {t : Addr} {f : ProfileId} (hv : e.valid = true) (ha : e.action = .forward g t f)
include hv ha

theorem fails_two : e.fails b 2 ↔ g = 0 :=
  (fails_iff hv ha 2).trans (segSet_eq_zero_iff g).symm

theorem fails_three (hg : g ≠ 0) : e.fails b 3 ↔ segSingle g = false ∧ (b.profiles[f]).readAllowed = true :=
  (fails_iff hv ha 3).trans (and_congr_left' (not_segSingle_iff g hg).symm)

theorem fails_four : e.fails b 4 ↔ reservedImage e.mask t = true := by
  rw [fails_iff hv ha, reservedImage_iff]
  simp only [← mem_image_iff e.mask t e.matchAddr]
  constructor
  · rintro ⟨up, hup, hd⟩
    exact ⟨_, ⟨up, hup, rfl⟩, hd⟩
  · rintro ⟨_, ⟨up, hup, rfl⟩, hd⟩
    exact ⟨up, hup, hd⟩

theorem fails_five : e.fails b 5 ↔ zeroMisuse e.matchAddr e.mask t = true :=
  (fails_iff hv ha 5).trans (zeroMisuse_iff ..).symm

end forward

end failure

/-- The lowest reason for which an entry fails, or none (R39, R40). -/
def RouteEntry.lowest (b : Bank) (e : RouteEntry) : Option Byte → Prop
  | none => ∀ k, ¬ e.fails b k
  | some r => e.fails b r.toNat ∧ ∀ k < r.toNat, ¬ e.fails b k

theorem lowest_unique {b : Bank} {e : RouteEntry} {x y : Option Byte} (hx : e.lowest b x) (hy : e.lowest b y) :
    x = y := by
  match x, y, hx, hy with
  | none, none, _, _ => rfl
  | none, some r, hx, hy => exact absurd hy.1 (hx _)
  | some r, none, hx, hy => exact absurd hx.1 (hy _)
  | some r, some r', hx, hy =>
    refine congrArg some (BitVec.eq_of_toNat_eq ?_)
    rcases Nat.lt_trichotomy r.toNat r'.toNat with h | h | h
    · exact absurd hx.1 (hy.2 _ h)
    · exact h
    · exact absurd hy.1 (hx.2 _ h)

/-- The checks in their order, the first that fails telling the reason (R39, R40). -/
theorem lowest_failure (b : Bank) (e : RouteEntry) : e.lowest b (e.failure b) := by
  have below1 : ∀ k < 1, ¬ e.fails b k := fun k hk => Nat.lt_one_iff.mp hk ▸ not_fails_zero
  unfold RouteEntry.failure
  split
  next hv => exact not_fails_of_invalid (by simpa using hv)
  next hv =>
  replace hv : e.valid = true := by simpa using hv
  split
  next hp => exact ⟨(fails_one hv).mpr (by simpa using hp), below1⟩
  next hp =>
  have below2 : ∀ k < 2, ¬ e.fails b k :=
    Nat.forall_lt_succ_right.mpr ⟨below1, by rw [fails_one hv]; simpa using hp⟩
  split
  next ha =>
    intro k
    by_cases hk : k < 2
    · exact below2 k hk
    · exact not_fails_of_deny ha (by omega)
  next g t f ha =>
  split
  next hg => exact ⟨(fails_two hv ha).mpr (by simpa using hg), below2⟩
  next hg =>
  replace hg : g ≠ 0 := by simpa using hg
  have below3 := Nat.forall_lt_succ_right.mpr ⟨below2, mt (fails_two hv ha).mp hg⟩
  split
  next h3 => exact ⟨(fails_three hv ha hg).mpr (by simpa using h3), below3⟩
  next h3 =>
  have below4 := Nat.forall_lt_succ_right.mpr
    ⟨below3, by rw [fails_three hv ha hg]; simpa using h3⟩
  split
  next h4 => exact ⟨(fails_four hv ha).mpr h4, below4⟩
  next h4 =>
  have below5 := Nat.forall_lt_succ_right.mpr ⟨below4, mt (fails_four hv ha).mp h4⟩
  split
  next h5 => exact ⟨(fails_five hv ha).mpr h5, below5⟩
  next h5 =>
    have below6 := Nat.forall_lt_succ_right.mpr ⟨below5, mt (fails_five hv ha).mp h5⟩
    intro k
    by_cases hk : k < 6
    · exact below6 k hk
    · exact not_fails_high (by omega)

theorem failure_eq_iff (b : Bank) (e : RouteEntry) (o : Option Byte) : e.failure b = o ↔ e.lowest b o :=
  ⟨fun h => h ▸ lowest_failure b e, lowest_unique (lowest_failure b e)⟩

theorem bankFailure_eq_none_iff (b : Bank) :
    bankFailure b = none ↔ ∀ i : RouteId, (b.entries[i]).failure b = none := by
  simp only [bankFailure, List.findSome?_eq_none_iff, List.mem_finRange, true_imp_iff, Option.map_eq_none_iff]

theorem bankFailure_eq_some_iff (b : Bank) (i : RouteId) (r : Byte) :
    bankFailure b = some (i, r) ↔
      (b.entries[i]).failure b = some r ∧ ∀ j < i, (b.entries[j]).failure b = none := by
  rw [bankFailure, findSome?_finRange_eq_some (i := i)]
  · simp only [Option.map_eq_none_iff, Option.map_eq_some_iff, Prod.mk.injEq, true_and, exists_eq_right]
  · rintro j y hy rfl
    obtain ⟨k, -, hk⟩ := Option.map_eq_some_iff.mp hy
    exact congrArg Prod.fst hk

/-- Settles O33: a bank's failure is the first failure of its entries, and an entry's the first of its checks. -/
theorem validationFindsLowestFailure : Obligations.ValidationFindsLowestFailure := by
  unfold Obligations.ValidationFindsLowestFailure
  intro b
  have pass : bankFailure b = none ↔ ∀ (i : RouteId) (k : Nat), ¬ (b.entries[i]).fails b k := by
    simp only [bankFailure_eq_none_iff, failure_eq_iff, RouteEntry.lowest]
  have fail : ∀ (i : RouteId) (reason : Byte), bankFailure b = some (i, reason) ↔
      (b.entries[i]).fails b reason.toNat ∧ (∀ k < reason.toNat, ¬ (b.entries[i]).fails b k) ∧
        ∀ j : RouteId, j < i → ∀ k, ¬ (b.entries[j]).fails b k := by
    intro i reason
    simp only [bankFailure_eq_some_iff, failure_eq_iff, RouteEntry.lowest, and_assoc]
  exact ⟨pass, fail⟩

end Sys2Proof.Machine
end

section
/-! PROOFS. What a step can do to the tables, the claims and the phases: a step is a run of elementary changes,
and each operation the commands share is one. -/

namespace Sys2Proof.Machine

-- One thread at a time elaborates this part: the compile stays within the check's memory.
set_option Elab.async false

/-! ### One port's part, and one profile's, of the invariants -/

/-- The credit state of one profile number goes with its active profile (R32). -/
def CreditOk (f : Profile) (c : Credit) : Prop :=
  if f.creditMax = 0 then c.timer = none
  else c.count.toNat ≤ f.creditMax.toNat ∧ c.timer.isSome = true

/-- A downstream address lies in 1 to 119, or is 0 with direction write (R40, R41). -/
def Claim.AddressOk (c : Claim) : Prop := c.address.toNat ≤ 119 ∧ (c.address = 0 → c.direction = .write)

/-- The claim of a path, if any, and a context whose phase has passed no byte (R71, R72). -/
def Opened (claim : Option Claim) (x : Context) : Prop :=
  ∀ c ∈ claim, x.direction = some c.direction ∧ x.phaseCount = some 0

/-- The bytes a phase has passed are within the limits of its claim (R27, R108, R112). -/
def PhaseOk (claim : Option Claim) (x : Context) : Prop :=
  ∀ c ∈ claim,
    match x.state with
    | .waiting | .addressing => x.direction = some c.direction ∧ x.phaseCount = some 0
    | .writing => c.direction = .write ∧ ∃ k ∈ x.phaseCount, c.maxWrite ≠ 0 → k ≤ c.maxWrite
    | .reading => c.direction = .read ∧ ∃ k ∈ x.phaseCount, c.maxRead ≠ 0 → k < c.maxRead
    | .limited => ∃ k ∈ x.phaseCount, match c.direction with
        | .write => c.maxWrite ≠ 0 → k ≤ c.maxWrite
        | .read => c.maxRead ≠ 0 → k ≤ c.maxRead
    | _ => True

theorem lengthsOk_iff (s : State) : LengthsOk s ↔ ∀ p, PhaseOk (s.path p).claim (s.context p) :=
  ⟨fun h p => match p with | .a => h.1 | .b => h.2, fun h => ⟨h .a, h .b⟩⟩

theorem addressesOk_iff (s : State) :
    AddressesOk s ↔ bankFailure s.table.active = none ∧
      (s.table.state = .draining → bankFailure s.table.other = none) ∧
      ∀ p, ∀ c ∈ (s.path p).claim, c.AddressOk :=
  ⟨fun h => ⟨h.1, h.2.1, fun p => match p with | .a => h.2.2.1 | .b => h.2.2.2⟩,
    fun h => ⟨h.1, h.2.1, h.2.2 .a, h.2.2 .b⟩⟩

/-- Only pins and counters differ, and the controller may have gone to COPYING (R36, R37, R47, R55, R58). -/
structure SameBanks (t k : TableControl) : Prop where
  bankP : k.bankP = t.bankP
  bankQ : k.bankQ = t.bankQ
  activeBank : k.activeBank = t.activeBank
  activeGen : k.activeGen = t.activeGen
  revision : k.revision = t.revision
  state : k.state = t.state ∨ k.state = .copying

/-! ### Elementary changes -/

/-- The states `s` can be taken to by elementary changes. The index names the port whose address is being
decided: its phase has ended, and the next one has not begun (R66). -/
inductive Changes (s : State) : Option Port → State → Prop
  /-- Nothing has changed. -/
  | refl : Changes s none s
  /-- Engines, management records, segments, the log and the model's own fields change freely. -/
  | unseen {x t u} (h : Changes s x t) (contexts : u.contexts = t.contexts) (paths : u.paths = t.paths)
      (table : u.table = t.table) (credits : u.credits = t.credits) (waitList : u.waitList = t.waitList) :
      Changes s x u
  /-- Pins and counters, and DRAINING or OPEN left for COPYING. -/
  | pins {x t} (h : Changes s x t) (k : TableControl) (hk : SameBanks t.table k) :
      Changes s x { t with table := k }
  /-- Credits within the bounds of the active profiles. -/
  | credits {x t} (h : Changes s x t) (v : Vector Credit 16)
      (hv : ∀ i : ProfileId, CreditOk t.table.active.profiles[i] t.credits[i] →
        CreditOk t.table.active.profiles[i] v[i]) : Changes s x { t with credits := v }
  /-- A load into the staging bank (R45, R49). -/
  | load {x t} (h : Changes s x t) (b : Bank) (ho : t.table.state = .opened) :
      Changes s x { t with table := { t.table.setOther b with revision := satInc t.table.revision } }
  /-- The take of a staging bank that passes validation (R53). -/
  | take {x t} (h : Changes s x t) (p : Port) (force : Bool) (ho : t.table.state = .opened)
      (hv : bankFailure t.table.other = none) :
      Changes s x { t with
        table := t.table.take p force
        credits := Vector.ofFn fun i => adjustCredit t.table.active.profiles[i]
          (t.table.take p force).active.profiles[i] t.credits[i] }
  /-- The end of a copy-back (R56). -/
  | copied {x t} (h : Changes s x t) : Changes s x { t with
      table := { t.table.setOther t.table.active with state := .opened, revision := 0, copyBack := none } }
  /-- A path keeps its claim or drops it. -/
  | path {x t} (h : Changes s x t) (p : Port) (q : Path)
      (hq : q.claim = (t.path p).claim ∨ q.claim = none) : Changes s x (withPath p q t)
  /-- A context keeps its state and its phase. -/
  | context {x t} (h : Changes s x t) (p : Port) (c : Context) (state : c.state = (t.context p).state)
      (direction : c.direction = (t.context p).direction) (count : c.phaseCount = (t.context p).phaseCount) :
      Changes s x (withContext p c t)
  /-- A context gives up its phase. -/
  | rest {x t} (h : Changes s x t) (p : Port) (c : Context) (hs : c.state.pinned = false)
      (hc : (c.direction = (t.context p).direction ∧ c.phaseCount = (t.context p).phaseCount) ∨
        (t.path p).claim = none ∨ NoRequest t p) : Changes s x (withContext p c t)
  /-- A context goes on with its phase within the limits. -/
  | phase {t} (h : Changes s none t) (p : Port) (c : Context) (hw : Agreement s → NoRequest t p)
      (hc : Agreement s → PhaseOk (t.path p).claim (t.context p) → PhaseOk (t.path p).claim c) :
      Changes s none (withContext p c t)
  /-- A waiting request is granted (R90). -/
  | granted {x t} (h : Changes s x t) (r : Request) (hr : r ∈ t.waitList) :
      Changes s x (withContext r.port { t.context r.port with state := .addressing } t)
  /-- Requests leave the wait list, or lose members. -/
  | requests {x t} (h : Changes s x t) (l : List Request)
      (hl : ∀ r ∈ l, ∃ o ∈ t.waitList, o.port = r.port) : Changes s x { t with waitList := l }
  /-- The address of a port without a request is to be decided. -/
  | deciding (p : Port) (hw : Agreement s → NoRequest s p) : Changes s (some p) s
  /-- The context of the port under decision changes freely. -/
  | decision {p t} (h : Changes s (some p) t) (c : Context) : Changes s (some p) (withContext p c t)
  /-- The decision ends without a phase. -/
  | decided {p t} (h : Changes s (some p) t) (c : Context) (hs : c.state.pinned = false) :
      Changes s none (withContext p c t)
  /-- The path records a claim. -/
  | claim {p t} (h : Changes s (some p) t) (q : Path)
      (hq : AddressesOk s → ∀ c ∈ q.claim, c.AddressOk) : Changes s (some p) (withPath p q t)
  /-- The claim is served at once. -/
  | addressing {p t} (h : Changes s (some p) t) (ho : Opened (t.path p).claim (t.context p)) :
      Changes s none (withContext p { t.context p with state := .addressing } t)
  /-- The claim waits. -/
  | waiting {p t} (h : Changes s (some p) t) (ho : Opened (t.path p).claim (t.context p)) (r : Request)
      (hr : r.port = p) :
      Changes s none { withContext p { t.context p with state := .waiting } t with
        waitList := t.waitList ++ [r] }
  /-- A reset of the device (R17). -/
  | reset (rightsHigh : Bool) : Changes s none (inReset rightsHigh s)

/-! ### Tables with the same banks -/

theorem SameBanks.refl (t : TableControl) : SameBanks t t := ⟨rfl, rfl, rfl, rfl, rfl, .inl rfl⟩

theorem sameBanks_unpin (t : TableControl) (pin : Option (BitVec 16)) : SameBanks t (t.unpin pin) := by
  obtain ⟨frame, state⟩ := unpin_frame t pin
  exact ⟨congrArg (·.bankP) frame, congrArg (·.bankQ) frame, congrArg (·.activeBank) frame,
    congrArg (·.activeGen) frame, congrArg (·.revision) frame, state.imp_right And.right⟩

theorem SameBanks.active {t k : TableControl} (h : SameBanks t k) : k.active = t.active := by
  rw [TableControl.active, TableControl.active, h.activeBank, h.bankP, h.bankQ]

theorem SameBanks.other {t k : TableControl} (h : SameBanks t k) : k.other = t.other := by
  rw [TableControl.other, TableControl.other, h.activeBank, h.bankP, h.bankQ]

/-! ### The operations the commands share -/

section shared

variable {s t : State} {x : Option Port}

theorem Changes.ite {u : State} {c : Prop} [Decidable c] (ht : Changes s x t) (hu : Changes s x u) :
    Changes s x (if c then t else u) := by
  split
  · exact ht
  · exact hu

variable (h : Changes s x t)
include h

theorem Changes.engine (p : Port) (f : Engine → Engine) : Changes s x (modEngine p f t) :=
  h.unseen rfl rfl rfl rfl rfl
theorem Changes.record (p : Port) (f : MgmtRecord → MgmtRecord) : Changes s x (modRecord p f t) :=
  h.unseen rfl rfl rfl rfl rfl
theorem Changes.modPath (p : Port) (f : Path → Path) (hf : ∀ q, (f q).claim = q.claim := by exact fun _ => rfl) :
    Changes s x (Machine.modPath p f t) := h.path p _ (.inl (hf _))
theorem Changes.modTable (f : TableControl → TableControl)
    (hf : ∀ k, SameBanks k (f k) := by exact fun _ => ⟨rfl, rfl, rfl, rfl, rfl, .inl rfl⟩) :
    Changes s x (Machine.modTable f t) := h.pins _ (hf _)
theorem Changes.segment (n : SegId) (f : Segment → Segment) : Changes s x (modSegment n f t) :=
  h.unseen rfl rfl rfl rfl rfl
theorem Changes.raise (e : Event) : Changes s x (Machine.raise e t) :=
  h.unseen (raise_contexts ..) (raise_paths ..) (raise_table ..) (raise_credits ..) (raise_waitList ..)
theorem Changes.answerAddress (p : Port) (a : Ack) : Changes s x (Machine.answerAddress p a t) := h.engine ..
theorem Changes.giveAck (p : Port) (a : Ack) : Changes s x (Machine.giveAck p a t) := h.engine ..
theorem Changes.supply (p : Port) (b : Byte) : Changes s x (Machine.supply p b t) := h.engine ..
theorem Changes.respond (p : Port) (v : Status) (d : List Byte) : Changes s x (Machine.respond p v d t) :=
  h.record ..
theorem Changes.respondPending (p : Port) (c : PendingCommand) : Changes s x (Machine.respondPending p c t) :=
  h.record ..
theorem Changes.respondFinal (p : Port) (v : Status) (d : List Byte) :
    Changes s x (Machine.respondFinal p v d t) := h.record ..
theorem Changes.dropReception (p : Port) : Changes s x (Machine.dropReception p t) := h.record ..
theorem Changes.releaseSegments (p : Port) (byAbort : Bool) (keep : SegId → Bool) :
    Changes s x (Machine.releaseSegments p byAbort keep t) := h.unseen rfl rfl rfl rfl rfl

theorem Changes.releasePin (p : Port) : Changes s x (Machine.releasePin p t) := by
  rw [releasePin_eq, unpinnedTable_eq]
  exact (h.pins _ (sameBanks_unpin ..)).context p _ rfl rfl rfl

theorem Changes.releaseAll (p : Port) (byAbort : Bool) : Changes s x (Machine.releaseAll p byAbort t) :=
  (h.releaseSegments ..).path p _ (.inl rfl)

theorem Changes.grant (r : Request) (hr : r ∈ t.waitList) : Changes s x (Machine.grant r.port r.segments t) := by
  have segments : Changes s x (modSegments (fun n y => if segMem r.segments n then y.granted r.port else y) t) :=
    h.unseen rfl rfl rfl rfl rfl
  exact (segments.path r.port ((t.path r.port).toAddress r.segments) (.inl rfl)).granted r hr

theorem Changes.examineFrom (older rest : List Request) (ho : ∀ r ∈ older, r ∈ t.waitList)
    (hr : ∀ r ∈ rest, r ∈ t.waitList) : Changes s x (Machine.examineFrom older rest t) := by
  induction rest generalizing older t with
  | nil => exact h.requests older fun r hr => ⟨r, ho r hr, rfl⟩
  | cons r rest ih =>
    have first : r ∈ t.waitList := hr r List.mem_cons_self
    have others : ∀ o ∈ rest, o ∈ t.waitList := fun o h => hr o (List.mem_cons_of_mem _ h)
    unfold Machine.examineFrom
    split
    · exact ih (h.grant r first) older ho others
    · refine ih h (older ++ [r]) (fun o h => ?_) others
      rcases List.mem_append.mp h with h | h
      · exact ho o h
      · rwa [List.mem_singleton.mp h]

theorem Changes.examine : Changes s x (Machine.examine t) := h.examineFrom [] t.waitList nofun fun _ hr => hr

theorem Changes.filter (f : Request → Bool) : Changes s x { t with waitList := t.waitList.filter f } :=
  h.requests _ fun r hr => ⟨r, (List.mem_filter.mp hr).1, rfl⟩

theorem Changes.withdraw (p : Port) : Changes s x (Machine.withdraw p t) := .ite (h.filter _).examine h

theorem Changes.countDenial (i : RouteId) : Changes s x (Machine.countDenial i t) := h.modTable _
theorem Changes.countHit (i : RouteId) : Changes s x (Machine.countHit i t) := h.modTable _

omit h in
/-- The event of a refusal and its denial count come after the context has given up its phase (R69). -/
theorem Changes.refuse_of {x' : Option Port} (p : Port) (kind : EventKind) (seg : Option SegId) (log : Bool)
    (h : Changes s x' (modContext p (fun c =>
      { c with state := .ignoring, traceOwed := false, waitTimer := none, idleTimer := none })
      (Machine.withdraw p (Machine.releaseAll p false t)))) :
    Changes s x' (Machine.refuse p kind seg log t) := by
  have answered := (h.releasePin p).answerAddress p .nak
  unfold Machine.refuse
  dsimp only
  split
  · exact .ite (.countDenial (.ite (answered.raise _) answered) _) (.ite (answered.raise _) answered)
  · exact .ite (answered.raise _) answered

theorem Changes.refuse (p : Port) (kind : EventKind) (seg : Option SegId) (log : Bool) :
    Changes s x (Machine.refuse p kind seg log t) :=
  .refuse_of p kind seg log (((h.releaseAll p false).withdraw p).rest p _ rfl (.inl ⟨rfl, rfl⟩))

omit h in
/-- A refusal ends the decision of an address (R69). -/
theorem Changes.refused {p : Port} (h : Changes s (some p) t) (kind : EventKind) (seg : Option SegId)
    (log : Bool) : Changes s none (Machine.refuse p kind seg log t) :=
  .refuse_of p kind seg log (((h.releaseAll p false).withdraw p).decided _ rfl)

theorem Changes.isolateRequest (n : SegId) (r : Request) : Changes s x (Machine.isolateRequest n r t) := by
  refine .ite ((h.filter _).refuse ..) (h.requests _ fun o ho => ?_)
  obtain ⟨o', ho', rfl⟩ := List.mem_map.mp ho
  exact ⟨o', ho', by split <;> rfl⟩

omit h in
theorem Changes.foldl {α : Type} {f : State → α → State} (l : List α)
    (hf : ∀ t a, Changes s x t → Changes s x (f t a)) (h : Changes s x t) : Changes s x (l.foldl f t) := by
  induction l generalizing t with
  | nil => exact h
  | cons a l ih => exact ih (hf t a h)

theorem Changes.arbiterIsolation (n : SegId) : Changes s x (Machine.arbiterIsolation n t) :=
  .ite h (h.foldl _ fun _ r ht => ht.isolateRequest n r).examine

theorem Changes.abortHold (p : Port) : Changes s x (Machine.abortHold p t) := by
  rw [abortHold_eq]
  exact h.unseen rfl rfl rfl rfl rfl

theorem Changes.abort (p : Port) (reason : AbortReason) : Changes s x (Machine.abort p reason t) := by
  have aborted := h.rest p
    { t.context p with state := .aborted, waitTimer := none, idleTimer := none } rfl (.inl ⟨rfl, rfl⟩)
  exact .ite ((((aborted.releasePin p).withdraw p).releaseAll p true).abortHold p) h

theorem Changes.enterIdle (n : SegId) : Changes s x (Machine.enterIdle n t) := (h.segment ..).examine
theorem Changes.enterIsolated (n : SegId) (p : Option Port) (d : Byte) :
    Changes s x (Machine.enterIsolated n p d t) := ((h.segment ..).raise _).arbiterIsolation n
theorem Changes.enterRecovering (n : SegId) (p : Option Port) : Changes s x (Machine.enterRecovering n p t) :=
  h.segment ..
theorem Changes.finishIsolation (n : SegId) (i : IsolationPending) :
    Changes s x (Machine.finishIsolation n i t) :=
  .ite ((h.enterIsolated ..).respondFinal ..) (h.enterIsolated ..)
theorem Changes.faultTransition (n : SegId) (p : Option Port) : Changes s x (Machine.faultTransition n p t) :=
  .ite (h.enterRecovering ..) (h.enterIsolated ..)
theorem Changes.closingFault (n : SegId) (c : ClosingRec) : Changes s x (Machine.closingFault n c t) := by
  unfold Machine.closingFault
  split
  · exact h.finishIsolation ..
  · exact h.faultTransition ..
theorem Changes.closingToUnsynced (n : SegId) (c : ClosingRec) (high : Bool) :
    Changes s x (Machine.closingToUnsynced n c high t) := by
  unfold Machine.closingToUnsynced
  split
  · exact h.finishIsolation ..
  · exact h.segment ..

end shared

end Sys2Proof.Machine
end

section
/-! PROOFS. The invariants of the table, of the claims and of the phases, at reset and under elementary changes. -/

namespace Sys2Proof.Machine

-- One thread at a time elaborates this part: the compile stays within the check's memory.
set_option Elab.async false

/-! ### The invariants right after reset -/

section reset

variable (high : Bool)

theorem bankFailure_reset : bankFailure Bank.reset = none := by
  rw [bankFailure_eq_none_iff]
  intro i
  simp [Bank.reset, RouteEntry.reset, RouteEntry.failure]

theorem atReset_context (p : Port) : (State.atReset high).context p = Context.idle := by cases p <;> rfl
theorem atReset_path (p : Port) : (State.atReset high).path p = Path.reset := by cases p <;> rfl
theorem atReset_engine (p : Port) : (State.atReset high).engine p = Engine.reset := by cases p <;> rfl
theorem atReset_holds (p : Port) (n : SegId) : (State.atReset high).holds p n = false := by
  simp [State.holds, State.segment, State.atReset, Segment.reset, Segment.heldBy]

theorem logOk_atReset : LogOk (State.atReset high) := ⟨Nat.zero_le _, rfl, rfl, rfl⟩

theorem managementOk_atReset : ManagementOk (State.atReset high) := by
  refine ⟨.inl rfl, onPorts_of_forall fun p => ?_⟩
  cases high <;> cases p <;> decide

theorem tableOk_atReset : TableOk (State.atReset high) := by
  refine ⟨show (0 : BitVec 16) ≠ 65535 by decide, fun _ _ => rfl, fun i => ?_⟩
  simp [State.atReset, TableControl.active, TableControl.reset, Bank.reset, Profile.reset]

theorem addressesOk_atReset : AddressesOk (State.atReset high) := by
  refine ⟨bankFailure_reset, nofun, onPorts_of_forall fun p => ?_⟩
  rw [atReset_path]
  exact nofun

theorem portAgrees_atReset (p : Port) : PortAgrees (State.atReset high) p where
  pin := by rw [atReset_context]; rfl
  held n hn := by rw [atReset_holds] at hn; cases hn
  request := by rw [atReset_context]; rfl
  stage := by rw [atReset_context, atReset_path]; rfl
  clock h := by rw [atReset_context] at h; rcases h with h | h <;> cases h
  naked h := by rw [atReset_engine] at h; cases h
  generation g hg := by rw [atReset_context] at hg; cases hg
  route n hn := by
    rcases hn with hn | ⟨r, hr, -⟩
    · rw [atReset_holds] at hn; cases hn
    · cases hr

theorem agreement_atReset : Agreement (State.atReset high) :=
  ⟨onPorts_of_forall (portAgrees_atReset high), rfl, nofun, rfl⟩

theorem lengthsOk_atReset : LengthsOk (State.atReset high) := by
  rw [lengthsOk_iff]
  intro p
  rw [atReset_path]
  exact nofun

end reset

/-- Settles O60: the invariants one by one, over the values of reset. -/
theorem resetMeetsInvariants : Obligations.ResetMeetsInvariants := by
  unfold Obligations.ResetMeetsInvariants
  exact fun high => ⟨logOk_atReset high, managementOk_atReset high, tableOk_atReset high,
    addressesOk_atReset high, agreement_atReset high, lengthsOk_atReset high⟩

/-! ### The table and the credits (R32, R35, R44, R45) -/

theorem satInc_ne_zero (r : BitVec 16) : satInc r ≠ 0 := by
  unfold satInc
  split
  next h => rw [h]; decide
  next h =>
    intro hz
    exact h (by rw [eq_neg_of_add_eq_zero_left hz]; rfl)

theorem nextGeneration_ne (g : BitVec 16) : nextGeneration g ≠ 65535 := by
  unfold nextGeneration
  split
  · decide
  · bv_omega

/-- The adjustment of a take brings the credits within their new bounds (R35). -/
theorem creditOk_adjustCredit {old new : Profile} {c : Credit} (h : CreditOk old c) :
    CreditOk new (adjustCredit old new c) := by
  unfold CreditOk adjustCredit at *
  by_cases ho : old.creditMax = 0 <;> by_cases hn : new.creditMax = 0 <;>
    simp only [ho, hn, if_true, if_false, le_refl, Option.isSome_some, and_self] at h ⊢
  · exact h
  · split
    · exact ⟨le_refl _, h.2⟩
    next hle => exact ⟨BitVec.not_lt.mp hle, h.2⟩

@[simp] theorem active_setOther (t : TableControl) (b : Bank) : (t.setOther b).active = t.active := by
  unfold TableControl.setOther TableControl.active
  cases t.activeBank <;> rfl
@[simp] theorem other_setOther (t : TableControl) (b : Bank) : (t.setOther b).other = b := by
  unfold TableControl.setOther TableControl.other
  cases t.activeBank <;> rfl
@[simp] theorem activeGen_setOther (t : TableControl) (b : Bank) : (t.setOther b).activeGen = t.activeGen := by
  unfold TableControl.setOther
  cases t.activeBank <;> rfl
@[simp] theorem state_setOther (t : TableControl) (b : Bank) : (t.setOther b).state = t.state := by
  unfold TableControl.setOther
  cases t.activeBank <;> rfl

/-- A take exchanges the roles of the banks (R53). -/
@[simp] theorem active_take (t : TableControl) (p : Port) (force : Bool) : (t.take p force).active = t.other := by
  unfold TableControl.take TableControl.active TableControl.other
  cases t.activeBank <;> rfl
@[simp] theorem other_take (t : TableControl) (p : Port) (force : Bool) : (t.take p force).other = t.active := by
  unfold TableControl.take TableControl.active TableControl.other
  cases t.activeBank <;> rfl
theorem state_take (t : TableControl) (p : Port) (force : Bool) : (t.take p force).state ≠ .opened := by
  unfold TableControl.take
  dsimp only
  generalize (if force = true then 0 else t.activePins) = retiring
  split <;> decide

theorem Changes.tableOk {s t : State} {x : Option Port} (h : Changes s x t) (hs : TableOk s) : TableOk t := by
  induction h with
  | refl | deciding => exact hs
  | path | context | rest | phase | granted | requests | decision | decided | claim | addressing | waiting =>
    assumption
  | @unseen x t u _ _ _ table credits _ ih =>
    unfold TableOk
    rw [table, credits]
    exact ih
  | @pins x t _ k hk ih =>
    obtain ⟨gen, untouched, bounds⟩ := ih
    refine ⟨hk.activeGen ▸ gen, fun ho hr => ?_, ?_⟩
    · show k.other = k.active
      rw [hk.other, hk.active]
      rcases hk.state with hst | hst
      · exact untouched (hst ▸ ho) (hk.revision ▸ hr)
      · rw [show k.state = _ from ho] at hst; cases hst
    · show ∀ i, CreditOk k.active.profiles[i] t.credits[i]
      rw [hk.active]
      exact bounds
  | @credits x t _ v hv ih => exact ⟨ih.1, ih.2.1, fun i => hv i (ih.2.2 i)⟩
  | @load x t _ b ho ih =>
    refine ⟨?_, fun _ hr => absurd hr (satInc_ne_zero _), ?_⟩
    · show (t.table.setOther b).activeGen ≠ _
      rw [activeGen_setOther]
      exact ih.1
    · show ∀ i, CreditOk (t.table.setOther b).active.profiles[i] t.credits[i]
      rw [active_setOther]
      exact ih.2.2
  | @take x t _ p force ho hv ih =>
    refine ⟨nextGeneration_ne _, fun ho => absurd ho (state_take t.table p force), fun i => ?_⟩
    show CreditOk (t.table.take p force).active.profiles[i] (Vector.ofFn _)[i]
    rw [Fin.getElem_fin, Fin.getElem_fin, Vector.getElem_ofFn]
    exact creditOk_adjustCredit (ih.2.2 i)
  | @copied x t _ ih =>
    refine ⟨?_, fun _ _ => ?_, ?_⟩
    · show (t.table.setOther _).activeGen ≠ _
      rw [activeGen_setOther]
      exact ih.1
    · show (t.table.setOther _).other = (t.table.setOther _).active
      rw [other_setOther, active_setOther]
    · show ∀ i, CreditOk (t.table.setOther _).active.profiles[i] t.credits[i]
      rw [active_setOther]
      exact ih.2.2
  | reset high => exact tableOk_atReset high

/-! ### The addresses (R40, R41) -/

theorem Changes.addressesOk {s t : State} {x : Option Port} (h : Changes s x t) (hs : AddressesOk s) :
    AddressesOk t := by
  induction h with
  | refl | deciding => exact hs
  | context | rest | phase | granted | requests | decision | decided | addressing | waiting | credits =>
    assumption
  | @unseen x t u _ _ paths table _ _ ih =>
    unfold AddressesOk State.path
    rw [table, paths]
    exact ih
  | @pins x t _ k hk ih =>
    obtain ⟨active, other, claims⟩ := ih
    refine ⟨hk.active ▸ active, fun hd => ?_, claims⟩
    show bankFailure k.other = none
    rw [hk.other]
    rcases hk.state with hst | hst
    · exact other (hst ▸ hd)
    · rw [show k.state = _ from hd] at hst; cases hst
  | @load x t _ b ho ih =>
    refine ⟨?_, fun hd => ?_, ih.2.2⟩
    · show bankFailure (t.table.setOther b).active = none
      rw [active_setOther]
      exact ih.1
    · have hst : (t.table.setOther b).state = .draining := hd
      rw [state_setOther, ho] at hst
      cases hst
  | @take x t _ p force ho hv ih =>
    refine ⟨?_, fun _ => ?_, ih.2.2⟩
    · show bankFailure (t.table.take p force).active = none
      rw [active_take]
      exact hv
    · show bankFailure (t.table.take p force).other = none
      rw [other_take]
      exact ih.1
  | @copied x t _ ih =>
    refine ⟨?_, nofun, ih.2.2⟩
    show bankFailure (t.table.setOther _).active = none
    rw [active_setOther]
    exact ih.1
  | @path x t _ p q hq ih =>
    rw [addressesOk_iff] at ih ⊢
    obtain ⟨active, other, claims⟩ := ih
    refine ⟨active, other, fun k c hc => ?_⟩
    have hk : (withPath p q t).path k = if k = p then q else t.path k := get_set ..
    rw [hk] at hc
    split at hc
    next hkp =>
      rcases hq with hq | hq
      · exact claims p c (hq ▸ hc)
      · rw [hq] at hc; cases hc
    · exact claims k c hc
  | @claim p t _ q hq ih =>
    rw [addressesOk_iff] at ih ⊢
    obtain ⟨active, other, claims⟩ := ih
    refine ⟨active, other, fun k c hc => ?_⟩
    have hk : (withPath p q t).path k = if k = p then q else t.path k := get_set ..
    rw [hk] at hc
    split at hc
    · exact hq hs c hc
    · exact claims k c hc
  | reset high => exact addressesOk_atReset high

/-! ### The lengths of phases (R27, R108, R112) -/

/-- The phase of one port is within its limits, and a port that has a request has passed no byte. -/
def Paced (s : State) (p : Port) : Prop :=
  PhaseOk (s.path p).claim (s.context p) ∧
    (¬ NoRequest s p → (s.context p).state.forwarding = false ∧ Opened (s.path p).claim (s.context p))

theorem phaseOk_of_unpinned {claim : Option Claim} {x : Context} (h : x.state.pinned = false) :
    PhaseOk claim x := by
  intro c _
  cases hx : x.state <;> simp [hx, CtxState.pinned, CtxState.holding, CtxState.forwarding] at h ⊢

theorem forwarding_of_unpinned {c : CtxState} (h : c.pinned = false) : c.forwarding = false := by
  cases c <;> simp [CtxState.pinned, CtxState.holding, CtxState.forwarding] at h ⊢

/-- A context keeps what the limits speak of. -/
theorem phaseOk_congr {claim : Option Claim} {x y : Context} (hs : y.state = x.state)
    (hd : y.direction = x.direction) (hk : y.phaseCount = x.phaseCount) (h : PhaseOk claim x) : PhaseOk claim y := by
  unfold PhaseOk
  rw [hs, hd, hk]
  exact h

theorem opened_congr {claim : Option Claim} {x y : Context}
    (hd : y.direction = x.direction) (hk : y.phaseCount = x.phaseCount) (h : Opened claim x) : Opened claim y := by
  unfold Opened
  rw [hd, hk]
  exact h

/-- A context with a request is waiting (R86). -/
theorem waiting_of_request {s : State} {p : Port} (h : PortAgrees s p) (hr : ¬ NoRequest s p) :
    (s.context p).state = .waiting := by
  by_contra hs
  have none := h.request
  rw [if_neg hs, List.length_eq_zero_iff, List.filter_eq_nil_iff] at none
  exact hr fun r hm => by simpa using none r hm

theorem Agreement.port {s : State} (h : Agreement s) : ∀ p, PortAgrees s p
  | .a => h.ports.1
  | .b => h.ports.2

theorem paced_of_agreement {s : State} (ha : Agreement s) (hl : LengthsOk s) (p : Port) : Paced s p := by
  have phase := (lengthsOk_iff s).mp hl p
  refine ⟨phase, fun hr => ?_⟩
  have hs := waiting_of_request (ha.port p) hr
  refine ⟨by rw [hs]; rfl, fun c hc => ?_⟩
  have := phase c hc
  rwa [hs] at this

theorem Paced.congr {t u : State} {q : Port} (h : Paced t q) (hp : (u.path q).claim = (t.path q).claim)
    (hs : (u.context q).state = (t.context q).state) (hd : (u.context q).direction = (t.context q).direction)
    (hk : (u.context q).phaseCount = (t.context q).phaseCount) (hw : NoRequest t q → NoRequest u q) :
    Paced u q := by
  obtain ⟨phase, request⟩ := h
  refine ⟨hp ▸ phaseOk_congr hs hd hk phase, fun hr => ?_⟩
  obtain ⟨forwarding, opened⟩ := request (mt hw hr)
  exact ⟨hs ▸ forwarding, hp ▸ opened_congr hd hk opened⟩

theorem paced_of_noRequest {t : State} {q : Port} (h : PhaseOk (t.path q).claim (t.context q))
    (hw : NoRequest t q) : Paced t q := ⟨h, fun hr => absurd hw hr⟩

theorem withContext_context (p q : Port) (c : Context) (t : State) :
    (withContext p c t).context q = if q = p then c else t.context q := get_set ..

theorem withPath_path (p k : Port) (q : Path) (t : State) :
    (withPath p q t).path k = if k = p then q else t.path k := get_set ..

/-- Every port but the one under decision is paced, and that one has no request. -/
def PacedBut (x : Option Port) (s : State) : Prop :=
  (∀ q, x ≠ some q → Paced s q) ∧ ∀ q, x = some q → NoRequest s q

theorem paced_withContext_other {t : State} {p q : Port} (c : Context) (hq : q ≠ p) (h : Paced t q) :
    Paced (withContext p c t) q := by
  have kept : (withContext p c t).context q = t.context q := by rw [withContext_context, if_neg hq]
  exact h.congr rfl (by rw [kept]) (by rw [kept]) (by rw [kept]) id

theorem PacedBut.withContext {x : Option Port} {t : State} (h : PacedBut x t) (p : Port) (c : Context)
    (hp : x ≠ some p → Paced (withContext p c t) p) : PacedBut x (withContext p c t) := by
  refine ⟨fun q hq => ?_, h.2⟩
  by_cases hqp : q = p
  · rw [hqp] at hq ⊢
    exact hp hq
  · exact paced_withContext_other c hqp (h.1 q hq)

/-- The end of a decision, from a port without a request. -/
theorem PacedBut.settled {p : Port} {t : State} (h : PacedBut (some p) t) (c : Context)
    (hp : NoRequest t p → Paced (Machine.withContext p c t) p) : PacedBut none (Machine.withContext p c t) := by
  refine ⟨fun q _ => ?_, nofun⟩
  by_cases hqp : q = p
  · rw [hqp]
    exact hp (h.2 p rfl)
  · exact paced_withContext_other c hqp (h.1 q fun hpq => hqp (Option.some.inj hpq).symm)

theorem paced_reset (high : Bool) (s : State) (q : Port) : Paced (inReset high s) q :=
  paced_of_noRequest (by cases q <;> exact nofun) nofun

theorem Changes.paced {s t : State} {x : Option Port} (h : Changes s x t) (ha : Agreement s)
    (hl : LengthsOk s) : PacedBut x t := by
  induction h with
  | refl => exact ⟨fun q _ => paced_of_agreement ha hl q, nofun⟩
  | deciding p hw =>
    refine ⟨fun q _ => paced_of_agreement ha hl q, ?_⟩
    rintro q ⟨⟩
    exact hw ha
  | pins | credits | load | take | copied => assumption
  | @unseen x t u _ contexts paths _ _ waitList ih =>
    unfold PacedBut Paced NoRequest State.path State.context
    rw [contexts, paths, waitList]
    exact ih
  | @path x t _ p q hq ih =>
    refine ⟨fun k hk => ?_, ih.2⟩
    obtain ⟨phase, request⟩ := ih.1 k hk
    have claim : ((withPath p q t).path k).claim = (t.path k).claim ∨ ((withPath p q t).path k).claim = none := by
      rw [withPath_path]
      split
      next hkp => rwa [hkp]
      · exact .inl rfl
    rcases claim with claim | claim
    · exact Paced.congr ⟨phase, request⟩ claim rfl rfl rfl id
    · refine ⟨fun c hc => ?_, fun hr => ⟨(request hr).1, fun c hc => ?_⟩⟩ <;> (rw [claim] at hc; cases hc)
  | @context x t _ p c state direction count ih =>
    refine ih.withContext p c fun hx => ?_
    refine (ih.1 p hx).congr rfl ?_ ?_ ?_ id <;> rwa [withContext_context_same]
  | @rest x t _ p c hs hc ih =>
    refine ih.withContext p c fun hx => ?_
    refine ⟨phaseOk_of_unpinned ?_, fun hr => ⟨forwarding_of_unpinned ?_, ?_⟩⟩ <;> rw [withContext_context_same]
    · exact hs
    · exact hs
    · rcases hc with ⟨hd, hk⟩ | hc | hc
      · exact opened_congr hd hk ((ih.1 p hx).2 hr).2
      · rw [withContext_path, hc]; exact nofun
      · exact absurd hc hr
  | @phase t _ p c hw hc ih =>
    refine ih.withContext p c fun hx => paced_of_noRequest ?_ (hw ha)
    rw [withContext_context_same]
    exact hc ha (ih.1 p hx).1
  | @granted x t _ r hr ih =>
    refine ih.withContext r.port _ fun hx => ?_
    have opened := ((ih.1 r.port hx).2 fun hn => hn r hr rfl).2
    refine ⟨?_, fun _ => ⟨?_, ?_⟩⟩ <;> rw [withContext_context_same]
    · exact opened
    · rfl
    · exact opened
  | @requests x t _ l hl' ih =>
    have fewer : ∀ q, NoRequest t q → NoRequest { t with waitList := l } q := by
      intro q hq r hr
      obtain ⟨o, ho, hor⟩ := hl' r hr
      exact hor ▸ hq o ho
    exact ⟨fun q hq => (ih.1 q hq).congr rfl rfl rfl rfl (fewer q), fun q hq => fewer q (ih.2 q hq)⟩
  | @decision p t _ c ih => exact ih.withContext p c fun hx => absurd rfl hx
  | @decided p t _ c hs ih =>
    refine ih.settled c fun hw => paced_of_noRequest (phaseOk_of_unpinned ?_) hw
    rw [withContext_context_same]
    exact hs
  | @claim p t _ q hq ih =>
    refine ⟨fun k hk => ?_, ih.2⟩
    have kept : (withPath p q t).path k = t.path k := by
      rw [withPath_path, if_neg fun hkp => hk (congrArg some hkp.symm)]
    exact (ih.1 k hk).congr (by rw [kept]) rfl rfl rfl id
  | @addressing p t _ ho ih =>
    refine ih.settled _ fun hw => paced_of_noRequest ?_ hw
    rw [withContext_context_same]
    exact ho
  | @waiting p t _ ho r hr ih =>
    refine ⟨fun q _ => ?_, nofun⟩
    by_cases hqp : q = p
    · have set : ({ withContext p { t.context p with state := .waiting } t with
          waitList := t.waitList ++ [r] } : State).context q = { t.context p with state := .waiting } := by
        rw [hqp]
        exact withContext_context_same ..
      refine ⟨?_, fun _ => ⟨?_, ?_⟩⟩ <;> rw [set]
      · rw [hqp]; exact ho
      · rfl
      · rw [hqp]; exact ho
    · have others := paced_withContext_other { t.context p with state := .waiting } hqp
        (ih.1 q fun hpq => hqp (Option.some.inj hpq).symm)
      refine others.congr rfl rfl rfl rfl fun hn o ho' => ?_
      rcases List.mem_append.mp ho' with ho' | ho'
      · exact hn o ho'
      · rw [List.mem_singleton.mp ho', hr]
        exact fun hpq => hqp hpq.symm
  | reset high => exact ⟨fun q _ => paced_reset high s q, nofun⟩

theorem Changes.lengthsOk {s t : State} (h : Changes s none t) (ha : Agreement s) (hl : LengthsOk s) :
    LengthsOk t :=
  (lengthsOk_iff t).mpr fun p => ((h.paced ha hl).1 p nofun).1

end Sys2Proof.Machine
end

section
/-! PROOFS. Every command is a run of elementary changes: the forwarding path and the segment controllers. -/

namespace Sys2Proof.Machine

-- One thread at a time elaborates this part: the compile stays within the check's memory.
set_option Elab.async false

/-- Whatever state the outcome answers, elementary changes lead to it. -/
def Leads (s : State) (o : Host.Outcome State Fault Refusal) : Prop := ∀ t, o = .next t → Changes s none t

theorem leads_act {f : State → State} {s : State} (h : Changes s none (f s)) : Leads s (act f s) := by
  rintro t ⟨⟩
  exact .ite .refl h

/-- A happening at a segment acts on the port that holds it, and on nothing where none does. -/
theorem leads_holder {f : Port → State → State} {s : State} (n : SegId)
    (h : ∀ p, (s.segment n).heldBy = some p → Changes s none (f p s)) :
    Leads s (act (fun s => match (s.segment n).heldBy with | none => s | some p => f p s) s) := by
  refine leads_act ?_
  cases hp : (s.segment n).heldBy with
  | none => exact .refl
  | some p => exact h p hp

/-! ### Bytes against their limits (R105, R108, R112) -/

theorem satInc_le {k m : Byte} (h : k < m) : satInc k ≤ m := by
  unfold satInc
  split
  next hk => exact absurd h (hk ▸ BitVec.not_allOnes_lt)
  · bv_omega

theorem byte_lt_of_ne {k m : Byte} (h : k ≤ m) (hne : k ≠ m) : k < m := by bv_omega

theorem limit_eq {α : Type} {claim : Option α} {c : α} (h : c ∈ claim) (f : α → Byte) :
    (claim.map f).getD 0 = f c := by
  rw [Option.mem_def.mp h]; rfl

section phaseOk

variable {claim : Option Claim} {x : Context}

/-- The first data byte is within every limit (R103). -/
theorem phaseOk_accepted (timer : Option Byte) (hs : x.state = .addressing) (h : PhaseOk claim x) :
    PhaseOk claim { x with state := if x.direction = some .read then .reading else .writing
                           waitTimer := none, idleTimer := timer } := by
  intro c hc
  have opened := h c hc
  rw [hs] at opened
  obtain ⟨direction, count⟩ := opened
  dsimp only
  rw [direction, count]
  cases hd : c.direction with
  | write => exact ⟨rfl, 0, rfl, fun _ => Nat.zero_le _⟩
  | read => exact ⟨rfl, 0, rfl, fun hm => by bv_omega⟩

/-- A write byte refused at the limit ends the phase (R108). -/
theorem phaseOk_limited (hs : x.state = .writing) (h : PhaseOk claim x) :
    PhaseOk claim { x with state := .limited } := by
  intro c hc
  have writing := h c hc
  rw [hs] at writing
  obtain ⟨direction, k, hk, bound⟩ := writing
  exact ⟨k, hk, by rw [direction]; exact bound⟩

/-- A write byte below the limit is passed (R105). -/
theorem phaseOk_written (hs : x.state = .writing) (h : PhaseOk claim x)
    (hl : ¬ ((claim.map (·.maxWrite)).getD 0 ≠ 0 ∧ x.phaseCount = some ((claim.map (·.maxWrite)).getD 0))) :
    PhaseOk claim { x with phaseCount := x.phaseCount.map satInc } := by
  intro c hc
  have writing := h c hc
  rw [hs] at writing
  obtain ⟨direction, k, hk, bound⟩ := writing
  rw [limit_eq hc] at hl
  dsimp only
  rw [hs]
  refine ⟨direction, satInc k, by rw [Option.mem_def.mp hk]; rfl, fun hm => satInc_le ?_⟩
  refine byte_lt_of_ne (bound hm) ?_
  rintro rfl
  exact hl ⟨hm, hk⟩

/-- The count of a read phase after one more byte (R109). -/
theorem phaseCount_presented (hs : x.state = .reading) (h : PhaseOk claim x) {c : Claim} (hc : c ∈ claim) :
    c.direction = .read ∧ ∃ k, x.phaseCount.map satInc = some k ∧ (c.maxRead ≠ 0 → k ≤ c.maxRead) := by
  have reading := h c hc
  rw [hs] at reading
  obtain ⟨direction, k, hk, bound⟩ := reading
  exact ⟨direction, satInc k, by rw [Option.mem_def.mp hk]; rfl, fun hm => satInc_le (bound hm)⟩

/-- A read byte below the limit is passed (R109). -/
theorem phaseOk_presented (hs : x.state = .reading) (h : PhaseOk claim x)
    (hl : ¬ ((claim.map (·.maxRead)).getD 0 ≠ 0 ∧
      x.phaseCount.map satInc = some ((claim.map (·.maxRead)).getD 0))) :
    PhaseOk claim { x with phaseCount := x.phaseCount.map satInc } := by
  intro c hc
  obtain ⟨direction, k, hk, bound⟩ := phaseCount_presented hs h hc
  rw [limit_eq hc, hk] at hl
  dsimp only
  rw [hs, hk]
  refine ⟨direction, k, rfl, fun hm => byte_lt_of_ne (bound hm) ?_⟩
  rintro rfl
  exact hl ⟨hm, rfl⟩

/-- The read byte that reaches the limit ends the phase (R112). -/
theorem phaseOk_readLimited (hs : x.state = .reading) (h : PhaseOk claim x) :
    PhaseOk claim { x with phaseCount := x.phaseCount.map satInc, state := .limited } := by
  intro c hc
  obtain ⟨direction, k, hk, bound⟩ := phaseCount_presented hs h hc
  exact ⟨k, hk, by rw [direction]; exact bound⟩

end phaseOk

/-! ### The agreement of a port where its segments report (R86, R99) -/

section agrees

variable {s : State} {p : Port} (h : PortAgrees s p)
include h

theorem noRequest_of_agrees (hs : (s.context p).state ≠ .waiting) : NoRequest s p := by
  by_contra hr
  exact hs (waiting_of_request h hr)

theorem addressing_of_stage (hg : (s.path p).stage = .address) :
    (s.context p).state = .addressing ∧ NoRequest s p := by
  have hs : (s.context p).state = .addressing := by simpa [stageAgrees, hg] using h.stage
  exact ⟨hs, noRequest_of_agrees h (by rw [hs]; decide)⟩

theorem reading_of_stage (hg : (s.path p).stage = .readReceiving) :
    (s.context p).state = .reading ∧ NoRequest s p := by
  have hs : (s.context p).state = .reading := by simpa [stageAgrees, hg] using h.stage
  exact ⟨hs, noRequest_of_agrees h (by rw [hs]; decide)⟩

theorem noRequest_of_hold (hh : (s.engine p).hold = .none) : NoRequest s p := by
  refine noRequest_of_agrees h fun hs => ?_
  have held := h.clock (.inl hs)
  rw [hh] at held
  cases held

end agrees

/-! ### The forwarding path (chapter 6) -/

section forwarding

variable {s t : State} {x : Option Port}

theorem Changes.addressAccepted {p : Port} (h : Changes s none t)
    (ha : Agreement s → (t.context p).state = .addressing ∧ NoRequest t p) :
    Changes s none (Machine.addressAccepted p t) := by
  have phase := ((h.releaseSegments p false (t.path p).acked).path p
    { t.path p with stage := .between, outcomes := noOutcomes
                    targetSending := if (t.context p).direction = some .read then some true else none }
    (.inl rfl)).phase p
    { t.context p with state := if (t.context p).direction = some .read then .reading else .writing
                       waitTimer := none, idleTimer := some (t.record p).idleLimit }
    (fun hs => (ha hs).2) fun hs hc => ?_
  · exact phase.answerAddress p .ack
  · rw [withPath_path_same] at hc ⊢
    exact phaseOk_accepted _ (ha hs).1 hc

theorem Changes.addressRefused (h : Changes s x t) (p : Port) : Changes s x (Machine.addressRefused p t) :=
  (((h.releaseAll p false).rest p { t.context p with state := .ignoring, waitTimer := none } rfl
    (.inl ⟨rfl, rfl⟩)).releasePin p).answerAddress p .nak

theorem Changes.formAddressOutcome {p : Port} (h : Changes s none t)
    (ha : Agreement s → (t.context p).state = .addressing ∧ NoRequest t p) :
    Changes s none (Machine.formAddressOutcome p t) :=
  .ite (h.abort p .downFault) (.ite h (.ite (h.addressAccepted ha) (h.addressRefused p)))

theorem Changes.addressReport {p : Port} (h : Changes s none t) (n : SegId) (r : AddrReport)
    (ha : Agreement s → (t.path p).stage = .address → (t.context p).state = .addressing ∧ NoRequest t p) :
    Changes s none (Machine.addressReport p n r t) := by
  unfold Machine.addressReport Machine.raiseExhausted
  dsimp only
  generalize hu : (if r = .exhausted then _ else _) = u
  have raised : Changes s none u := hu ▸ .ite (h.raise _) h
  have contexts : u.context p = t.context p ∧ u.waitList = t.waitList := by
    rw [← hu]; split <;> simp
  split
  next hg =>
    refine .ite ?_ h
    have recorded := (raised.segment n (Segment.reported r)).path p
      { u.path p with outcomes := (u.path p).outcomes.set n (some (reportOutcome r)) } (.inl rfl)
    refine recorded.formAddressOutcome fun hs => ?_
    obtain ⟨addressing, unrequested⟩ := ha hs hg.1
    refine ⟨?_, ?_⟩
    · rw [withPath_context, modSegment_context, contexts.1]
      exact addressing
    · rw [NoRequest, withPath_waitList, modSegment_waitList, contexts.2]
      exact unrequested
  · exact raised

theorem leads_addressOutcome (p : Port) (n : SegId) (r : AddrReport) : Leads s (execAddressOutcome p n r s) :=
  leads_act (.ite (Changes.refl.addressReport n r fun ha => addressing_of_stage (ha.port p)) .refl)

theorem Changes.limitWrite {p : Port} (h : Changes s none t) (hs : (t.context p).state = .writing)
    (hw : Agreement s → NoRequest t p) : Changes s none (Machine.limitWrite p t) :=
  ((h.giveAck p .nak).phase p { t.context p with state := .limited } hw fun _ => phaseOk_limited hs).raise _

theorem Changes.forwardWrite {p : Port} (h : Changes s none t) (b : Byte) (hs : (t.context p).state = .writing)
    (hw : Agreement s → NoRequest t p)
    (hl : ¬ (((t.path p).claim.map (·.maxWrite)).getD 0 ≠ 0 ∧
      (t.context p).phaseCount = some (((t.path p).claim.map (·.maxWrite)).getD 0))) :
    Changes s none (Machine.forwardWrite p b t) := by
  have counted := h.phase p { t.context p with phaseCount := (t.context p).phaseCount.map satInc } hw
    fun _ hc => phaseOk_written hs hc hl
  have forwarded := (counted.modPath p fun q =>
    { q with stage := .writeByte, byte := some b, targetSending := none
             outcomes := Vector.ofFn fun n => if t.holds p n then some .pending else none }).engine p
    fun e => { e with hold := .write }
  exact forwarded

theorem Changes.writeForwarding {p : Port} (h : Changes s none t) (b : Byte)
    (hs : (t.context p).state = .writing) (hw : Agreement s → NoRequest t p) :
    Changes s none (Machine.writeForwarding p b t) := by
  unfold Machine.writeForwarding
  dsimp only
  split
  · exact h.limitWrite hs hw
  next hl => exact h.forwardWrite b hs hw hl

theorem Changes.formWriteAcknowledge (h : Changes s x t) (p : Port) :
    Changes s x (Machine.formWriteAcknowledge p t) := by
  have released : Changes s x (if (t.path p).combinesToAck then
      Machine.releaseSegments p false (t.path p).acked t else t) := .ite (h.releaseSegments ..) h
  exact .ite h ((released.modPath p _).giveAck p _)

theorem leads_writeAcknowledge (n : SegId) (a : Ack) : Leads s (execWriteAcknowledge n a s) :=
  leads_holder n fun p _ => .ite (((Changes.refl.segment n _).modPath p _).formWriteAcknowledge p) .refl

theorem Changes.beginRead (h : Changes s x t) (p : Port) : Changes s x (Machine.beginRead p t) :=
  (h.engine ..).modPath p _

theorem Changes.readForwarding (h : Changes s x t) (p : Port) : Changes s x (Machine.readForwarding p t) :=
  .ite (h.beginRead p) (.ite ((h.engine ..).modPath p _) h)

theorem Changes.endRead (h : Changes s x t) (p : Port) : Changes s x (Machine.endRead p t) :=
  (h.path p { t.path p with stage := .readEnded, byte := none, targetSending := none, mirroring := false
                            wanted := false } (.inl rfl)).unseen rfl rfl rfl rfl rfl

theorem Changes.presentRead {p : Port} (h : Changes s none t) (b : Byte)
    (ha : Agreement s → (t.context p).state = .reading ∧ NoRequest t p) :
    Changes s none (Machine.presentRead p b t) := by
  have presented := h.path p { t.path p with stage := .readPresented, byte := some b, targetSending := some false }
    (.inl rfl)
  unfold Machine.presentRead
  dsimp only
  split
  next full =>
    have ended := ((presented.phase p
      { t.context p with phaseCount := (t.context p).phaseCount.map satInc, state := .limited }
      (fun hs => (ha hs).2) fun hs hc => by
        rw [withPath_path_same] at hc ⊢
        exact phaseOk_readLimited (ha hs).1 hc).supply p b).endRead p
    refine Changes.raise ?_ _
    convert ended using 1
    cases p <;> rfl
  next below =>
    refine Changes.supply (presented.phase p
      { t.context p with phaseCount := (t.context p).phaseCount.map satInc } (fun hs => (ha hs).2)
      fun hs hc => ?_) p b
    rw [withPath_path_same] at hc ⊢
    refine phaseOk_presented (ha hs).1 hc ?_
    cases p <;> exact below

theorem leads_readByteReceived (n : SegId) (b : Byte) : Leads s (execReadByteReceived n b s) := by
  refine leads_holder n fun p _ => ?_
  split
  next hg => exact (Changes.refl.segment ..).presentRead b fun ha => reading_of_stage (s := s) (ha.port p) hg
  · exact .refl

theorem Changes.mirrorAcknowledge (h : Changes s x t) (p : Port) (a : Ack) :
    Changes s x (Machine.mirrorAcknowledge p a t) := by
  unfold Machine.mirrorAcknowledge
  refine .ite ?_ h
  cases a with
  | ack => exact h.modPath p _
  | nak => exact h.endRead p

theorem leads_acknowledgeSlotDone (n : SegId) : Leads s (execAcknowledgeSlotDone n s) := by
  refine leads_holder n fun p _ => ?_
  have between := (Changes.refl.segment (s := s) n Segment.noBits).modPath p fun q =>
    { q with stage := .between, byte := none, mirroring := false, wanted := false, targetSending := some true }
  exact .ite (.ite (between.beginRead p) between) .refl

theorem leads_stretchBudget (n : SegId) : Leads s (execStretchBudget n s) :=
  leads_holder n fun p _ => .ite (((Changes.refl.modPath p _).raise _).abort p .budget) .refl

end forwarding

/-! ### The segment controllers (chapter 7) -/

section segments

variable {s t : State} {x : Option Port}

theorem leads_quietIntervalObserved (n : SegId) : Leads s (execQuietIntervalObserved n s) :=
  leads_act (.ite ((Changes.refl.segment ..).enterIdle n) .refl)

theorem leads_deferredQuietObserved (n : SegId) : Leads s (execDeferredQuietObserved n s) := by
  refine leads_act ?_
  dsimp only
  split
  · exact .ite (Changes.refl.segment ..) .refl
  · exact .refl

theorem Changes.loseAddress {h : HeldRec} (ht : Changes s none t) (n : SegId)
    (ha : Agreement s → (t.path h.port).stage = .address →
      (t.context h.port).state = .addressing ∧ NoRequest t h.port) :
    Changes s none (Machine.loseAddress n h t) :=
  .ite (((ht.segment ..).segment ..).addressReport n .exhausted ha) ((ht.segment ..).segment ..)

theorem Changes.loseData (ht : Changes s x t) (n : SegId) (h : HeldRec) :
    Changes s x (Machine.loseData n h t) :=
  (((((ht.raise _).segment ..).segment ..).segment ..).abort h.port .downFault)

theorem leads_arbitrationLoss (n : SegId) (point : LossPoint) : Leads s (execArbitrationLoss n point s) := by
  refine leads_act ?_
  dsimp only
  split
  next h _ =>
    refine .ite .refl ?_
    cases point with
    | address => exact .ite (Changes.refl.loseAddress n fun ha => addressing_of_stage (s := s) (ha.port h.port)) .refl
    | data => exact .ite (Changes.refl.loseData n h) .refl
  · exact .ite ((Changes.refl.segment ..).segment ..) .refl
  · exact .refl

theorem Changes.heldBusError (ht : Changes s x t) (n : SegId) (h : HeldRec) (stop : Bool) :
    Changes s x (Machine.heldBusError n h stop t) :=
  ((((ht.raise _).segment ..).segment ..).abort h.port .downFault)

theorem Changes.heldForeignStart {h : HeldRec} (ht : Changes s none t) (n : SegId)
    (ha : Agreement s → (t.path h.port).stage = .address →
      (t.context h.port).state = .addressing ∧ NoRequest t h.port) :
    Changes s none (Machine.heldForeignStart n h t) := by
  have chosen : Changes s none { t with freeChoices := t.freeChoices + 1 } := ht.unseen rfl rfl rfl rfl rfl
  exact .ite (.ite (chosen.loseAddress n ha) (chosen.heldBusError n h false)) (ht.heldBusError n h false)

theorem Changes.closingBusError (ht : Changes s x t) (n : SegId) (c : ClosingRec) (stop : Bool) :
    Changes s x (Machine.closingBusError n c stop t) := (ht.raise _).closingToUnsynced n c stop

theorem Changes.recoveryToForeign (ht : Changes s x t) (n : SegId) (r : RecoveringRec) :
    Changes s x (Machine.recoveryToForeign n r t) := by
  unfold Machine.recoveryToForeign
  dsimp only
  split
  · exact (ht.segment ..).respondFinal ..
  · exact ht.segment ..

theorem leads_segmentStartSeen (n : SegId) : Leads s (execSegmentStartSeen n s) := by
  have seen : Changes s none (conditionSeen n s) := Changes.refl.segment ..
  refine leads_act ?_
  split
  · exact seen.segment ..
  · exact seen.segment ..
  · exact seen
  next h _ =>
    exact .ite (seen.segment ..) (seen.heldForeignStart n fun ha => addressing_of_stage (s := s) (ha.port h.port))
  next c _ => exact .ite seen (seen.closingBusError n c false)
  next r _ => exact seen.recoveryToForeign n r
  · exact Changes.refl.segment ..

theorem leads_segmentStopSeen (n : SegId) : Leads s (execSegmentStopSeen n s) := by
  have seen : Changes s none (conditionSeen n s) := Changes.refl.segment ..
  refine leads_act ?_
  split
  · exact seen.segment ..
  · exact seen.segment ..
  · exact seen
  next h _ => exact .ite (seen.segment ..) (seen.heldBusError n h true)
  next c _ => exact .ite (seen.closingToUnsynced n c true) (seen.closingBusError n c true)
  · exact seen
  · exact Changes.refl.segment ..

theorem leads_lineLowWithoutStart (n : SegId) (line : Line) : Leads s (execLineLowWithoutStart n line s) :=
  leads_act (.ite ((Changes.refl.segment ..).segment ..) .refl)

/-- A fault of a held segment: its events, its counters, its way out, and the abort of its holder. -/
theorem Changes.heldFault (ht : Changes s x t) (n : SegId) (p : Port) :
    Changes s x (Machine.abort p .downFault
      (Machine.faultTransition n (some p) (countDeparture n (countFault n t)))) :=
  ((((ht.segment ..).segment ..).faultTransition n (some p)).abort p .downFault)

theorem leads_stretchFault (n : SegId) : Leads s (execStretchFault n s) := by
  refine leads_act ?_
  dsimp only
  split
  next h _ => exact .ite .refl ((((Changes.refl.segment ..).raise _).raise _).heldFault n h.port)
  next c _ =>
    exact .ite .refl (((((Changes.refl.segment ..).raise _).raise _).segment ..).closingFault n c)
  · exact .refl

theorem leads_stuckLineFault (n : SegId) (line : Line) : Leads s (execStuckLineFault n line s) := by
  have measured : Changes s none (stuckMeasured n line s) := by
    unfold stuckMeasured measure
    exact Changes.refl.segment ..
  refine leads_act ?_
  dsimp only
  split
  · exact ((measured.raise _).segment ..).faultTransition n none
  · exact ((measured.raise _).segment ..).faultTransition n none
  next h _ => exact .ite ((measured.raise _).heldFault n h.port) .refl
  next c _ => exact .ite (((measured.raise _).segment ..).closingFault n c) .refl
  · exact .refl

theorem leads_closingStopDriven (n : SegId) : Leads s (execClosingStopDriven n s) := by
  refine leads_act ?_
  dsimp only
  split
  next c _ =>
    refine .ite .refl ?_
    split
    · exact (Changes.refl.segment ..).finishIsolation ..
    · exact (Changes.refl.segment ..).enterIdle n
  · exact .refl

theorem Changes.recoverySucceeds (ht : Changes s x t) (n : SegId) (r : RecoveringRec) (pulses : Nat) :
    Changes s x (Machine.recoverySucceeds n r pulses t) := by
  unfold Machine.recoverySucceeds
  dsimp only
  split
  · exact ((ht.segment ..).raise _).respondFinal ..
  · exact (ht.segment ..).raise _

theorem Changes.recoveryFails (ht : Changes s x t) (n : SegId) (r : RecoveringRec) :
    Changes s x (Machine.recoveryFails n r t) := by
  unfold Machine.recoveryFails
  dsimp only
  refine .ite (ht.segment ..) ?_
  split
  · exact ((ht.segment ..).enterIsolated ..).respondFinal ..
  · exact (ht.segment ..).enterIsolated ..

theorem Changes.endAttempt (ht : Changes s x t) (n : SegId) (result : AttemptResult) :
    Changes s x (Machine.endAttempt n result t) := by
  unfold Machine.endAttempt
  split
  next r _ =>
    refine .ite ht ?_
    cases result with
    | success pulses => exact ht.recoverySucceeds n r pulses
    | failure => exact ht.recoveryFails n r
  · exact ht

theorem leads_recoveryAttemptEnd (n : SegId) (result : AttemptResult) :
    Leads s (execRecoveryAttemptEnd n result s) := by
  cases result with
  | failure => exact leads_act (Changes.refl.endAttempt n .failure)
  | success pulses =>
    unfold execRecoveryAttemptEnd
    dsimp only
    split
    · exact leads_act (Changes.refl.endAttempt n (.success pulses))
    · rintro t ⟨⟩

theorem leads_recoveryWaitEnd (n : SegId) : Leads s (execRecoveryWaitEnd n s) := by
  refine leads_act ?_
  split
  · exact Changes.refl.segment ..
  · exact .refl

variable (h : Changes s x t)
include h

theorem Changes.opSegmentStatus (p : Port) (n : Byte) : Changes s x (Machine.opSegmentStatus p n t) := by
  unfold Machine.opSegmentStatus
  split <;> exact h.respond ..

theorem Changes.opSegmentConfigure (p : Port) (n v q st r auto : Byte) :
    Changes s x (Machine.opSegmentConfigure p n v q st r auto t) := by
  unfold Machine.opSegmentConfigure
  split
  · exact .ite ((h.segment ..).respond ..) (h.respond ..)
  · exact h.respond ..

theorem Changes.isolateHeld (p holder : Port) (n : SegId) : Changes s x (Machine.isolateHeld p holder n t) := by
  have aborted := h.abort holder .isolate
  unfold Machine.isolateHeld
  dsimp only
  split
  · exact (aborted.segment ..).respondPending ..
  · exact (aborted.enterIsolated ..).respond ..
  · exact aborted

theorem Changes.opSegmentIsolate (p : Port) (n : Byte) : Changes s x (Machine.opSegmentIsolate p n t) := by
  unfold Machine.opSegmentIsolate
  split
  · exact h.respond ..
  split
  · exact (h.enterIsolated ..).respond ..
  · exact (h.enterIsolated ..).respond ..
  · exact (h.enterIsolated ..).respond ..
  · refine ((?_ : Changes s x _).enterIsolated ..).respond ..
    split
    · exact h.respondFinal ..
    · exact h
  · exact h.isolateHeld ..
  · split
    · exact h.respond ..
    · exact (h.segment ..).respondPending ..
  · exact h.respond ..

theorem Changes.opSegmentRestore (p : Port) (n : Byte) : Changes s x (Machine.opSegmentRestore p n t) := by
  unfold Machine.opSegmentRestore
  split
  · exact h.respond ..
  · exact .ite ((((h.segment ..).segment ..).raise _).respond ..) (h.respond ..)

theorem Changes.opSegmentRecover (p : Port) (n : Byte) : Changes s x (Machine.opSegmentRecover p n t) := by
  unfold Machine.opSegmentRecover
  split
  · exact h.respond ..
  split
  iterate 3 exact (h.enterRecovering ..).respondPending ..
  iterate 4 exact h.respond ..

end segments

end Sys2Proof.Machine
end

section
/-! PROOFS. Every command is a run of elementary changes: the table, the management dispatcher, the timers and
the upstream reports; and so every step. -/

namespace Sys2Proof.Machine

-- One thread at a time elaborates this part: the compile stays within the check's memory.
set_option Elab.async false

theorem getElem_ofFn_fin {α : Type} {n : Nat} (f : Fin n → α) (i : Fin n) : (Vector.ofFn f)[i] = f i :=
  Vector.getElem_ofFn ..

theorem getElem_set_fin {α : Type} {n : Nat} (v : Vector α n) (i k : Fin n) (x : α) :
    (v.set i x)[k] = if k = i then x else v[k] := by
  rw [Fin.getElem_fin, Vector.getElem_set]
  exact if_congr (by rw [Fin.ext_iff, eq_comm]) rfl rfl

/-- Credits stay within their bounds where the timer keeps running, or stopped, and the count within the
credit max. -/
theorem CreditOk.of_timer {f : Profile} {c d : Credit} (h : CreditOk f c) (ht : d.timer.isSome = c.timer.isSome)
    (hk : c.count.toNat ≤ f.creditMax.toNat → d.count.toNat ≤ f.creditMax.toNat) : CreditOk f d := by
  unfold CreditOk at *
  split
  next hm =>
    rw [if_pos hm] at h
    rwa [h, Option.isSome_none, Option.isSome_eq_false_iff, Option.isNone_iff_eq_none] at ht
  next hm =>
    rw [if_neg hm] at h
    exact ⟨hk h.1, ht ▸ h.2⟩

/-! ### The table controller (chapter 3) -/

section table

variable {s t : State} {x : Option Port} (h : Changes s x t)
include h

theorem Changes.loadStaging (p : Port) (f : Bank → Bank) : Changes s x (Machine.loadStaging p f t) := by
  unfold Machine.loadStaging
  split
  next ho => exact (h.load _ ho).respond ..
  · exact h.respond ..

theorem Changes.opRouteLoad (p : Port) (i c m k g d f : Byte) :
    Changes s x (Machine.opRouteLoad p i c m k g d f t) := by
  unfold Machine.opRouteLoad
  split
  · exact .ite (h.loadStaging ..) (h.respond ..)
  · exact h.respond ..

theorem Changes.opPolicyLoad (p : Port) (i f w r c a d b : Byte) :
    Changes s x (Machine.opPolicyLoad p i f w r c a d b t) := by
  unfold Machine.opPolicyLoad
  split
  · exact .ite (h.loadStaging ..) (h.respond ..)
  · exact h.respond ..

theorem Changes.opRouteRead (p : Port) (role i : Byte) : Changes s x (Machine.opRouteRead p role i t) := by
  unfold Machine.opRouteRead
  split
  · split <;> exact h.respond ..
  · exact h.respond ..

theorem Changes.opPolicyRead (p : Port) (role i : Byte) : Changes s x (Machine.opPolicyRead p role i t) := by
  unfold Machine.opPolicyRead
  split
  · split <;> exact h.respond ..
  · exact h.respond ..

theorem Changes.opCounterRead (p : Port) (i : Byte) : Changes s x (Machine.opCounterRead p i t) := by
  unfold Machine.opCounterRead
  split <;> exact h.respond ..

theorem Changes.forcedAborts (g : BitVec 16) : Changes s x (Machine.forcedAborts g t) := by
  have chosen : Changes s x { t with freeChoices := t.freeChoices + 1 } := h.unseen rfl rfl rfl rfl rfl
  have one : Changes s x (if forcedBy g (t.context .a) then Machine.abort .a .forced t else t) :=
    .ite (h.abort ..) h
  exact .ite (.ite ((chosen.abort ..).abort ..) ((chosen.abort ..).abort ..)) (.ite (one.abort ..) one)

theorem Changes.takeCommit (p : Port) (force : Bool) (ho : t.table.state = .opened)
    (hv : bankFailure t.table.other = none) : Changes s x (Machine.takeCommit p force t) := by
  have taken := h.take p force ho hv
  refine Changes.respond ?_ ..
  exact .ite ((taken.raise _).forcedAborts _) taken

theorem Changes.opTableCommit (p : Port) (expected : BitVec 16) (force : Byte) :
    Changes s x (Machine.opTableCommit p expected force t) := by
  unfold Machine.opTableCommit
  split
  · exact h.respond ..
  split
  · exact h.respond ..
  next ho =>
    refine .ite (h.respond ..) ?_
    split
    · exact h.respond ..
    next hv => exact h.takeCommit p _ (not_not.mp ho) hv

theorem Changes.opTableDiscard (p : Port) : Changes s x (Machine.opTableDiscard p t) :=
  .ite ((h.pins { t.table with state := .copying, copyBack := some (.discard p true) }
    ⟨rfl, rfl, rfl, rfl, rfl, .inr rfl⟩).respondPending ..) (h.respond ..)

theorem Changes.endCopyBack : Changes s x (Machine.endCopyBack t) := by
  unfold Machine.endCopyBack
  dsimp only
  split
  · exact h.copied.raise _
  · exact h.copied.respondFinal ..
  · exact h.copied

end table

/-! ### The management dispatcher (chapter 8) -/

/-- An abort of a context without a request leaves the wait list (R83). -/
theorem abort_waitList (p : Port) (reason : AbortReason) (s : State) (hw : NoRequest s p) :
    (abort p reason s).waitList = s.waitList := by
  cases hr : reason.reaches (s.context p).state with
  | false => rw [abort_unreached _ _ _ hr]
  | true => rw [abort_eq _ _ _ hr hw]; rfl

section management

variable {s t : State} {x : Option Port} (h : Changes s x t)
include h

theorem Changes.opPortStatus (p : Port) (q : Byte) : Changes s x (Machine.opPortStatus p q t) := by
  unfold Machine.opPortStatus
  split <;> exact h.respond ..

theorem Changes.evalAlert (p : Port) : Changes s x (Machine.evalAlert p t) := h.unseen rfl rfl rfl rfl rfl
theorem Changes.evalAlerts : Changes s x (Machine.evalAlerts t) := h.unseen rfl rfl rfl rfl rfl

theorem Changes.opPortConfigure (p : Port) (q a w i : Byte) (m : BitVec 32) :
    Changes s x (Machine.opPortConfigure p q a w i m t) := by
  unfold Machine.opPortConfigure
  split
  · exact h.respond ..
  · exact .ite (((h.record ..).evalAlert _).respond ..) (h.respond ..)

theorem Changes.opLogPeek (p : Port) : Changes s x (Machine.opLogPeek p t) := by
  unfold Machine.opLogPeek
  split <;> exact h.respond ..

theorem Changes.opLogPop (p : Port) : Changes s x (Machine.opLogPop p t) := by
  have popped : Changes s x { Machine.opLogPeek p t with
      log := { (Machine.opLogPeek p t).log with records := (Machine.opLogPeek p t).log.records.tail, lost := 0 } } :=
    (h.opLogPeek p).unseen rfl rfl rfl rfl rfl
  exact .ite popped.evalAlerts popped

theorem Changes.abortForReset (p : Port) : Changes s x (Machine.abortForReset p t) := (h.abort ..).engine ..

/-- CONTEXT RESET clears a context that has no request (R85, R97). -/
theorem Changes.resetContext (p : Port) (issuing : Bool) (hw : t.waitList = []) :
    Changes s x (Machine.resetContext p issuing t) ∧ (Machine.resetContext p issuing t).waitList = [] := by
  have none : NoRequest t p := by rw [NoRequest, hw]; exact nofun
  unfold Machine.resetContext
  dsimp only
  generalize hu : (if issuing = true ∧ (t.context p).state = .mgmtWrite then t
    else Machine.abortForReset p t) = u
  have aborted : Changes s x u := hu ▸ .ite h (h.abortForReset p)
  have empty : u.waitList = [] := by
    rw [← hu]
    split
    · exact hw
    · exact (abort_waitList p .reset t none).trans hw
  refine ⟨(aborted.rest p Context.idle rfl (.inr (.inr ?_))).record .., empty⟩
  rw [NoRequest, empty]
  exact nofun

theorem Changes.resetCredits : Changes s x (Machine.resetCredits t) := by
  refine h.credits _ fun i hc => ?_
  rw [getElem_ofFn_fin]
  exact hc.of_timer rfl fun _ => le_refl _

theorem Changes.opContextReset (p : Port) : Changes s x (Machine.opContextReset p t) := by
  obtain ⟨first, empty⟩ := (h.requests [] nofun).resetContext (otherPort p) false rfl
  obtain ⟨second, -⟩ := first.resetContext p true empty
  have cleared : Changes s x (emptyLog (modSegments (fun _ y => resetSegment y)
      (Machine.resetContext p true (Machine.resetContext (otherPort p) false { t with waitList := [] })))) :=
    second.unseen rfl rfl rfl rfl rfl
  exact ((cleared.resetCredits.modTable _).respondFinal ..).respond ..

theorem Changes.runCommand (p : Port) (o : MgmtOp) (args : List Byte) :
    Changes s x (Machine.runCommand p o args t) := by
  apply runCommand_induction (P := Changes s x)
  case unchanged => exact h
  case identify | tableStatus => exact h.respond ..
  case rightsGrant | rightsRevoke => exact (h.record ..).respond ..
  case portStatus => exact h.opPortStatus p
  case portConfigure => exact h.opPortConfigure p
  case routeLoad => exact h.opRouteLoad p
  case routeRead => exact h.opRouteRead p
  case policyLoad => exact h.opPolicyLoad p
  case policyRead => exact h.opPolicyRead p
  case tableCommit => exact h.opTableCommit p
  case tableDiscard => exact h.opTableDiscard p
  case counterRead => exact h.opCounterRead p
  case segmentStatus => exact h.opSegmentStatus p
  case segmentConfigure => exact h.opSegmentConfigure p
  case segmentIsolate => exact h.opSegmentIsolate p
  case segmentRestore => exact h.opSegmentRestore p
  case segmentRecover => exact h.opSegmentRecover p
  case logPeek => exact h.opLogPeek p
  case logPop => exact h.opLogPop p
  case contextReset => exact h.opContextReset p

theorem Changes.executeCommand (p : Port) (o : MgmtOp) (args : List Byte) :
    Changes s x (Machine.executeCommand p o args t) := .ite (h.respond ..) (h.runCommand ..)

theorem Changes.examineBytes (p : Port) (bytes : List Byte) : Changes s x (Machine.examineBytes p bytes t) := by
  refine .ite ((h.raise _).respond ..) ?_
  split
  · exact h.respond ..
  · exact .ite (h.respond ..) (h.executeCommand ..)

theorem Changes.examineReception (p : Port) (r : Reception) :
    Changes s x (Machine.examineReception p r t) := .ite h (.ite (h.respond ..) (h.examineBytes ..))

theorem Changes.handOver (p : Port) : Changes s x (Machine.handOver p t) := by
  unfold Machine.handOver
  split
  · exact h
  · exact (h.examineReception ..).dropReception p

omit h in
theorem leads_managementWrite (p : Port) (bytes : List Byte) : Leads s (execManagementWrite p bytes s) :=
  leads_act ((Changes.refl.examineReception ..).dropReception p)

omit h in
theorem leads_command (p : Port) (o : MgmtOp) (args : List Byte) : Leads s (command p o args s) :=
  leads_act (.ite .refl ((Changes.refl.executeCommand ..).dropReception p))

end management

/-! ### Resets and timers -/

section timers

variable (s : State)

theorem leads_resetEnd : Leads s (execResetEnd s) := by
  rintro t ⟨⟩
  refine .ite ?_ .refl
  exact Changes.refl.unseen rfl rfl rfl rfl rfl

theorem leads_addressWaitLimit (p : Port) : Leads s (execAddressWaitLimit p s) :=
  leads_act (.ite (Changes.refl.refuse ..) .refl)

theorem leads_idleLimit (p : Port) : Leads s (execIdleLimit p s) :=
  leads_act (.ite ((Changes.refl.raise _).abort ..) .refl)

/-- A refill ends at the credit max at most (R33). -/
theorem refilled_le (f : Profile) (count : Byte) (h : count.toNat ≤ f.creditMax.toNat) :
    (refilled f count).toNat ≤ f.creditMax.toNat := by
  unfold refilled
  rw [if_pos h]
  split
  next hsum =>
    rw [BitVec.toNat_add]
    exact (Nat.mod_le ..).trans hsum
  · exact le_refl _

theorem leads_refillTimer (i : ProfileId) : Leads s (execRefillTimer i s) := by
  refine leads_act ?_
  dsimp only
  split
  next hr =>
    refine Changes.refl.credits _ fun k hk => ?_
    rw [getElem_set_fin]
    split
    next hki =>
      subst hki
      exact hk.of_timer hr.symm (refilled_le _ _)
    · exact hk
  · exact .refl

theorem leads_timestampTick : Leads s (execTimestampTick s) :=
  leads_act (Changes.refl.unseen rfl rfl rfl rfl rfl)

end timers

/-! ### Conditions and bytes of the upstream ports (chapters 1 and 4) -/

section upstream

variable {s t : State} {x : Option Port}

theorem leads_reported {p : Port} {f : State → State}
    (h : (s.engine p).tracker = .busy ∧ (s.engine p).hold = .none → Changes s none (f s)) :
    Leads s (act (reported p f) s) := by
  refine leads_act ?_
  unfold reported
  split
  next hr => exact h hr
  · exact .refl

section

variable (h : Changes s x t) (p : Port)
include h

theorem Changes.raiseTransaction : Changes s x (Machine.raiseTransaction p t) :=
  .ite ((h.raise _).context p _ rfl rfl rfl) h

theorem Changes.endPresented : Changes s x (Machine.endPresented p t) := .ite (h.endRead p) h

theorem Changes.closePhase : Changes s x (Machine.closePhase p t) := by
  have restarted : Changes s x (modContext p (fun c => { c with idleTimer := some (t.record p).idleLimit }) t) :=
    h.context p _ rfl rfl rfl
  unfold Machine.closePhase
  split
  · exact h.handOver p
  · exact h.raiseTransaction p
  · exact h.raiseTransaction p
  · exact restarted.raiseTransaction p
  · exact restarted.raiseTransaction p
  · exact restarted.raiseTransaction p
  all_goals exact h

theorem Changes.leaveForwarding : Changes s x (Machine.leaveForwarding p t) := (h.releaseAll p false).releasePin p

theorem Changes.closeTransaction : Changes s x (Machine.closeTransaction p t) := by
  unfold Machine.closeTransaction
  split
  · exact h.handOver p
  · exact (h.leaveForwarding p).raiseTransaction p
  · exact (h.leaveForwarding p).raiseTransaction p
  · exact (h.leaveForwarding p).raiseTransaction p
  · exact h.raiseTransaction p
  · exact h.raiseTransaction p
  all_goals exact h

end

theorem leads_upstreamStart (p : Port) : Leads s (act (upstreamStart p) s) := by
  refine leads_act (.ite ((Changes.refl.engine ..).record ..) (.ite ?_ .refl))
  exact (((Changes.refl.endPresented p).closePhase p).engine ..).path p _ (.inr rfl)

theorem leads_stop (p : Port) : Leads s (execStop p s) := by
  refine leads_reported fun _ => ?_
  have closed := (Changes.refl (s := s).endPresented p).closeTransaction p
  generalize closeTransaction p (endPresented p s) = u at closed
  have idle := ((closed.path p (u.path p).phaseEnd (.inr rfl)).rest p Context.idle rfl
    (.inr (.inl (by rw [withPath_path_same]; rfl))))
  refine idle.unseen ?_ ?_ rfl rfl rfl
  · rfl
  · rfl

theorem leads_controllerAcknowledge (p : Port) (a : Ack) : Leads s (execControllerAcknowledge p a s) :=
  leads_reported fun _ => .ite .refl (.ite ((Changes.refl.engine ..).mirrorAcknowledge p a) (Changes.refl.engine ..))

theorem leads_byteComplete (p : Port) : Leads s (execByteComplete p s) :=
  leads_reported fun _ => .ite ((Changes.refl.engine ..).context p _ rfl rfl rfl) (Changes.refl.engine ..)

theorem leads_busError (p : Port) : Leads s (execBusError p s) := by
  refine leads_reported fun _ => ?_
  have seen := Changes.refl.engine (s := s) p Engine.atCondition
  exact .ite ((seen.raise _).abort ..)
    (.ite (((seen.raise _).dropReception p).rest p _ rfl (.inl ⟨rfl, rfl⟩)) (seen.raise _))

theorem Changes.writeManagement (h : Changes s x t) (p : Port) (b : Byte) :
    Changes s x (Machine.writeManagement p b t) := by
  unfold Machine.writeManagement
  split
  · exact h.giveAck ..
  · exact (h.record ..).giveAck ..

theorem leads_writeByte (p : Port) (b : Byte) : Leads s (execWriteByte p b s) := by
  refine leads_reported fun _ => .ite .refl ?_
  have taken := Changes.refl.engine (s := s) p fun e => { e with bits := 8, shifter := b }
  refine .ite (taken.giveAck ..) ?_
  split
  · exact taken.writeManagement p b
  next hs =>
    have noRequest : Agreement s → NoRequest s p := fun ha => noRequest_of_agrees (ha.port p) (by rw [hs]; decide)
    exact .ite (taken.writeForwarding b hs noRequest) .refl
  iterate 4 exact taken.giveAck ..
  iterate 4 exact .refl

theorem Changes.readManagement (h : Changes s x t) (p : Port) : Changes s x (Machine.readManagement p t) := by
  unfold Machine.readManagement
  split
  · exact (h.record ..).supply ..
  · exact h.supply ..

theorem leads_readByteWanted (p : Port) : Leads s (execReadByteWanted p s) := by
  refine leads_reported fun _ => .ite .refl ?_
  split
  · exact Changes.refl.readManagement p
  · exact Changes.refl.readForwarding p
  iterate 2 exact Changes.refl.supply ..
  iterate 6 exact .refl

end upstream

end Sys2Proof.Machine
end

section
/-! PROOFS. The address decision is a run of elementary changes, and so is every step: the invariants of the table,
of the claims and of the phases are kept. -/

namespace Sys2Proof.Machine

-- One thread at a time elaborates this part: the compile stays within the check's memory.
set_option Elab.async false

/-! ### The downstream address of a claim (R22, R40, R41) -/

/-- In a bank that passes validation, a phase that the direction check lets through is forwarded to an address in
1 to 119, or to 0 for a write. -/
theorem addressOk_of_passes {b : Bank} {p : Port} {addr : Addr} {i : RouteId} {g : SegSet} {d : Addr}
    {f : ProfileId} {dir : Direction} {c : Claim} (hb : bankFailure b = none) (hl : lookup b p addr = some i)
    (he : (b.entries[i]).action = .forward g d f) (hd : directionRefused b.profiles[f] dir addr = false)
    (hc : c.address = translated (b.entries[i]).mask d addr) (hdir : c.direction = dir) : c.AddressOk := by
  obtain ⟨valid, -, inMatchSet⟩ := (hits_iff ..).mp ((lookup_eq_some_iff ..).mp hl).1
  have passes : ∀ k, ¬ (b.entries[i]).fails b k :=
    (failure_eq_iff ..).mp ((bankFailure_eq_none_iff b).mp hb i)
  have reserved := mt (fails_iff valid he 4).mpr (passes 4)
  have zero := mt (fails_iff valid he 5).mpr (passes 5)
  rw [Claim.AddressOk, hc, hdir]
  refine ⟨?_, fun ht => ?_⟩
  · by_contra high
    exact reserved ⟨addr, inMatchSet, by omega⟩
  · have source : addr = 0 := by
      by_contra hne
      exact zero (.inl ⟨addr, inMatchSet, hne, ht⟩)
    cases dir with
    | write => rfl
    | read => exact absurd ((directionRefused_iff ..).mpr (.inr ⟨rfl, .inr source⟩)) (by rw [hd]; decide)

/-- The bank a context is pinned to is in service (R41, R46). -/
theorem bankFailure_pinnedBank {s : State} (h : AddressesOk s) (p : Port) : bankFailure (pinnedBank p s) = none := by
  rw [← bankOf_eq, TableControl.bankOf]
  split
  next hd => exact h.2.1 hd.1
  · exact h.1

/-! ### The address decision (R66 to R72) -/

theorem decideRoute_deny (p : Port) (addr : Addr) (dir : Direction) (i : RouteId) (s : State)
    (hl : lookup (searchedBank p (searching p s)) p addr = some i)
    (he : ((searchedBank p (searching p s)).entries[i]).action = .deny) :
    decideRoute p addr dir s =
      let u := hitCounted p i (searching p s)
      refuse p .denyRule none true (withContext p { u.context p with route := some i, policy := none } u) := by
  simp only [decideRoute, requestPin_eq, bankOf_eq, hl, he, hitCounted_eq]
  rfl

section decision

variable {s t : State} {p : Port}

theorem creditOk_requestCredit (f : Profile) (c : Credit) (h : CreditOk f c) : CreditOk f (requestCredit f c).2 := by
  unfold requestCredit
  split
  · exact h
  split
  · exact h
  next hc => exact h.of_timer rfl fun hk => by dsimp only; bv_omega

theorem Changes.requestPin {x : Option Port} (h : Changes s x t) (p : Port) :
    Changes s x (Machine.requestPin p t) :=
  .ite h ((h.modTable _).context p _ rfl rfl rfl)

variable (h : Changes s (some p) t)
include h

/-- The claim is served at once, whatever its segments do (R90, R100). -/
theorem Changes.served (set : SegSet) (v : Vector Segment 8) (ho : Opened (t.path p).claim (t.context p)) :
    Changes s none (modContext p (fun c => { c with state := .addressing })
      (Machine.modPath p (·.toAddress set) { t with segments := v })) := by
  have segments : Changes s (some p) { t with segments := v } := h.unseen rfl rfl rfl rfl rfl
  refine (segments.modPath p (·.toAddress set)).addressing ?_
  rw [modPath_path_same]
  exact ho

theorem Changes.request (set : SegSet) (handling : IsolationHandling)
    (ho : Opened (t.path p).claim (t.context p)) : Changes s none (Machine.request p set handling t) :=
  .ite (h.served set _ ho) (.foldl _ (fun _ n hu => hu.arbiterIsolation n) (h.waiting ho _ rfl))

theorem Changes.keepSegments (set : SegSet) (ho : Opened (t.path p).claim (t.context p)) :
    Changes s none (Machine.keepSegments p set t) := h.served set _ ho

theorem Changes.placeClaim (c : Claim) (set : SegSet) (hc : AddressesOk s → c.AddressOk)
    (hd : (t.context p).direction = some c.direction) (hk : (t.context p).phaseCount = some 0) :
    Changes s none (Machine.placeClaim p c set t) := by
  have timed := h.decision { t.context p with waitTimer := some (t.record p).waitLimit }
  have claimed := timed.claim { t.path p with claim := some c, sums := Vector.replicate 8 0 } fun hs c' hc' => by
    cases hc'
    exact hc hs
  have opened : Opened (some c) { t.context p with waitTimer := some (t.record p).waitLimit } := by
    rintro c' ⟨⟩
    exact ⟨hd, hk⟩
  refine .ite (claimed.keepSegments set ?_) ((claimed.releaseAll p false).request set _ ?_)
  · rw [withPath_path_same, withPath_context, withContext_context_same]
    exact opened
  · rw [releaseAll_eq]
    cases p <;> exact opened

theorem Changes.decideForward {addr : Addr} {dir : Direction} {bank : Bank} {i : RouteId} {g : SegSet} {d : Addr}
    {f : ProfileId} (chained : Bool) (hb : AddressesOk s → bankFailure bank = none)
    (hl : lookup bank p addr = some i) (he : (bank.entries[i]).action = .forward g d f)
    (hd : (t.context p).direction = some dir) :
    Changes s none
      (Machine.decideForward p addr dir chained bank.entries[i] g d f bank.profiles[f] t) := by
  unfold Machine.decideForward
  refine .ite (h.refused ..) ?_
  split
  · exact h.refused ..
  next direction =>
  dsimp only
  split
  · exact h.refused ..
  refine .ite (h.refused ..) ?_
  have credited := h.credits (t.credits.set f
    (requestCredit t.table.active.profiles[f] t.credits[f]).2) fun k hk => by
      rw [getElem_set_fin]
      split
      next hkf => rw [hkf] at hk ⊢; exact creditOk_requestCredit _ _ hk
      · exact hk
  refine (credited.decision { t.context p with
    phaseCount := some 0, traceOwed := (bank.profiles[f]).logTransactions }).placeClaim _ _
    (fun hs => addressOk_of_passes (hb hs) hl he (by simpa using direction) rfl rfl) ?_ ?_
  · rw [withContext_context_same]; exact hd
  · rw [withContext_context_same]

theorem Changes.decideNoMatch : Changes s none (Machine.decideNoMatch p t) :=
  ((((h.releaseAll p false).releasePin p).decided _ rfl).answerAddress p .nak)

theorem Changes.decideManagement (dir : Direction) : Changes s none (Machine.decideManagement p dir t) := by
  have left := (((h.releaseAll p false).releasePin p).decision
    { (Machine.leaveForwarding p t).context p with route := none, policy := none })
  unfold Machine.decideManagement
  refine Changes.answerAddress ?_ p .ack
  cases dir with
  | write => exact (left.decided _ rfl).record ..
  | read => exact (left.decided _ rfl).record ..

theorem Changes.decideRoute (addr : Addr) (dir : Direction) (hd : (t.context p).direction = some dir) :
    Changes s none (Machine.decideRoute p addr dir t) := by
  have searched : Changes s (some p) (searching p t) := by
    rw [← requestPin_eq]
    exact (h.record ..).requestPin p
  have pinned := fun hs => bankFailure_pinnedBank (searched.addressesOk hs) p
  have direction : ((searching p t).context p).direction = some dir := by
    obtain ⟨g, hg⟩ := searching_pinned p t
    rw [hg, withRecord_context, withContext_context_same]
    exact hd
  cases hl : lookup (searchedBank p (searching p t)) p addr with
  | none =>
    rw [decideRoute_noMatch p addr dir t hl]
    exact searched.decideNoMatch
  | some i =>
    have hit : Changes s (some p) (hitCounted p i (searching p t)) := by
      rw [← hitCounted_eq]
      exact .ite (searched.countHit i) searched
    have context : (hitCounted p i (searching p t)).context p = (searching p t).context p := by
      rw [hitCounted_frame]
      rfl
    cases he : ((searchedBank p (searching p t)).entries[i]).action with
    | deny =>
      rw [decideRoute_deny p addr dir i t hl he]
      exact (hit.decision _).refused ..
    | forward g d f =>
      rw [decideRoute_forward p addr dir i g d f t hl he]
      refine (hit.decision _).decideForward _ pinned hl he ?_
      rw [withContext_context_same, context]
      exact direction

end decision

theorem leads_address (p : Port) (addr : Addr) (dir : Direction) (s : State) :
    Leads s (execAddress p addr dir s) := by
  refine leads_reported fun hr => .ite ?_ .refl
  have deciding := Changes.deciding (s := s) p fun ha => noRequest_of_hold (ha.port p) hr.2
  have taken : Changes s (some p) (takeAddress p addr dir s) := (deciding.engine ..).decision _
  refine .ite (taken.decideManagement dir) (taken.decideRoute addr dir ?_)
  exact congrArg Context.direction (modContext_context_same ..)

/-- Every command is a run of elementary changes. -/
theorem leads_exec (c : Instr) (s : State) : Leads s (exec c s) := by
  cases c
  case powerOn high | rstAssert high =>
    rintro t ⟨⟩
    exact .reset high
  case resetEnd => exact leads_resetEnd s
  case start p | repeatedStart p => exact leads_upstreamStart p
  case stop p => exact leads_stop p
  case address p addr dir => exact leads_address p addr dir s
  case writeByte p b => exact leads_writeByte p b
  case readByteWanted p => exact leads_readByteWanted p
  case controllerAcknowledge p a => exact leads_controllerAcknowledge p a
  case byteComplete p => exact leads_byteComplete p
  case busError p => exact leads_busError p
  case managementWrite p bytes => exact leads_managementWrite p bytes
  case addressWaitLimit p => exact leads_addressWaitLimit s p
  case idleLimit p => exact leads_idleLimit s p
  case refillTimer i => exact leads_refillTimer s i
  case timestampTick => exact leads_timestampTick s
  case quietIntervalObserved n => exact leads_quietIntervalObserved n
  case deferredQuietObserved n => exact leads_deferredQuietObserved n
  case addressOutcome p n r => exact leads_addressOutcome p n r
  case writeAcknowledge n a => exact leads_writeAcknowledge n a
  case readByteReceived n b => exact leads_readByteReceived n b
  case acknowledgeSlotDone n => exact leads_acknowledgeSlotDone n
  case arbitrationLoss n point => exact leads_arbitrationLoss n point
  case segmentStartSeen n => exact leads_segmentStartSeen n
  case segmentStopSeen n => exact leads_segmentStopSeen n
  case lineLowWithoutStart n line => exact leads_lineLowWithoutStart n line
  case stretchFault n => exact leads_stretchFault n
  case stuckLineFault n line => exact leads_stuckLineFault n line
  case stretchBudget n => exact leads_stretchBudget n
  case closingStopDriven n => exact leads_closingStopDriven n
  case recoveryAttemptEnd n r => exact leads_recoveryAttemptEnd n r
  case recoveryWaitEnd n => exact leads_recoveryWaitEnd n
  case copyBackEnd => exact leads_act (.ite Changes.refl.endCopyBack .refl)
  all_goals exact leads_command _ _ _

/-! ### Steps -/

/-- The agreement of the records does not speak of the queue. -/
theorem agreement_pending {s : State} (rest : List Instr) (h : Agreement s) :
    Agreement { s with pending := rest } := by
  have port : ∀ p, PortAgrees { s with pending := rest } p := fun p =>
    { pin := (h.port p).pin, held := (h.port p).held, request := (h.port p).request, stage := (h.port p).stage
      clock := (h.port p).clock, naked := (h.port p).naked, generation := (h.port p).generation
      route := (h.port p).route }
  exact ⟨⟨port .a, port .b⟩, ⟨h.pins.active, h.pins.retiring⟩⟩

/-- A step leaves the state, or is a run of elementary changes from it with the front of the queue taken. -/
theorem step_changes {s t : State} (h : step s = .next t) :
    t = s ∨ ∃ rest, Changes { s with pending := rest } none t := by
  unfold step at h
  split at h
  · cases h
    exact .inl rfl
  next c rest _ => exact .inr ⟨rest, leads_exec c _ t h⟩

/-- Settles O56, by induction on the elementary changes of a step. -/
theorem generationStagingAndCreditsKept : Obligations.GenerationStagingAndCreditsKept := by
  unfold Obligations.GenerationStagingAndCreditsKept
  intro s t hs hstep
  rcases step_changes hstep with rfl | ⟨rest, changes⟩
  · exact hs
  · exact changes.tableOk hs

/-- Settles O57, by induction on the elementary changes of a step. -/
theorem drivenAddressesKept : Obligations.DrivenAddressesKept := by
  unfold Obligations.DrivenAddressesKept
  intro s t hs hstep
  rcases step_changes hstep with rfl | ⟨rest, changes⟩
  · exact hs
  · exact changes.addressesOk hs

/-- Settles O59: every port stays paced along the elementary changes of a step. -/
theorem lengthLimitsKept : Obligations.LengthLimitsKept := by
  unfold Obligations.LengthLimitsKept
  intro s t ha hs hstep
  rcases step_changes hstep with rfl | ⟨rest, changes⟩
  · exact hs
  · exact changes.lengthsOk (agreement_pending rest ha) hs

end Sys2Proof.Machine
end

section
/-! PROOFS. The timers and limits: refill, timestamp, address wait limit, idle limit and stretch budget. -/

namespace Sys2Proof.Machine

-- One thread at a time elaborates this part: the compile stays within the check's memory.
set_option Elab.async false

/-! ### Refill and timestamp (R33, R173) -/

/-- A refill adds up to the credit max, and never takes a credit away. -/
theorem refilled_eq (f : Profile) (count : Byte) :
    refilled f count =
      BitVec.ofNat 8 (max count.toNat (min (count.toNat + f.refillAmount.toNat) f.creditMax.toNat)) := by
  apply BitVec.eq_of_toNat_eq
  have := count.isLt
  have := f.creditMax.isLt
  unfold refilled
  split
  · rw [BitVec.toNat_add, BitVec.toNat_ofNat]; omega
  split
  · rw [BitVec.toNat_ofNat]; omega
  · rw [BitVec.toNat_ofNat]; omega

/-- Settles O53: the row is the refill of the model, which adds up to the credit max. -/
theorem refillAndTimestamp : Obligations.RefillAndTimestamp := by
  unfold Obligations.RefillAndTimestamp
  intro s hs
  refine ⟨?_, fun i => (act_next _ s hs).trans ?_⟩
  · show execTimestampTick s = _
    exact act_next _ s hs
  · simp only [refilled_eq]

/-! ### The idle limit and the stretch budget (R78, R115) -/

/-- A port without a request is aborted after an event as after none. -/
theorem abort_raise (p : Port) (reason : AbortReason) (e : Event) (s : State)
    (h : reason.reaches (s.context p).state = true) (hw : NoRequest s p) :
    abort p reason (raise e s) = abortedState p (raise e s) :=
  abort_eq p reason _ (by rwa [raise_context]) (by rwa [NoRequest, raise_waitList])

/-- Settles O11: both limits raise their event and abort a context that they reach. -/
theorem idleLimitAndBudgetAbort : Obligations.IdleLimitAndBudgetAbort := by
  unfold Obligations.IdleLimitAndBudgetAbort
  intro s p hs hw
  refine ⟨fun forwarding running free => (act_next _ s hs).trans ?_,
    fun n c held holding claimed limited => ?_⟩
  · rw [if_pos ⟨running, forwarding, free⟩]
    exact congrArg _ (abort_raise p .abandoned _ s forwarding hw)
  · have holder : (s.segment n).heldBy = some p := (holds_iff s p n).mp held
    show execStretchBudget n s = _
    rw [execStretchBudget, act_next _ s hs]
    have budget : ((s.path p).claim.map (·.budget)).getD 0 = c.budget := by rw [claimed]; rfl
    simp only [holder, budget]
    rw [if_pos ⟨limited, holding⟩]
    have reached : AbortReason.reaches .budget
        ((modPath p (fun q => { q with sums := q.sums.set n c.budget.toNat }) s).context p).state = true := holding
    rw [abort_raise p .budget _ _ reached hw]
    rfl

/-! ### The address wait limit (R69, R75, R92) -/

/-- A grant to one port gives no segment to the other. -/
theorem granted_leaves {p k : Port} {set : SegSet} {s : State} {n : SegId} (hk : k ≠ p)
    (h : s.holds p n = false) : (granted k set s).holds p n = false := by
  have segment : (granted k set s).segment n = if segMem set n then
      { s.segment n with state := .held ⟨k, false, false, 0, .none, .start⟩
                         grants := satInc (s.segment n).grants, quiet := none, bits := 0 }
      else s.segment n := Vector.getElem_ofFn ..
  rw [State.holds, segment]
  split
  · exact beq_eq_false_iff_ne.mpr fun e => hk (Option.some.inj e)
  · exact h

/-- Requests of other ports leave a port's path and give it no segment (R90). -/
theorem examineFrom_leaves (p : Port) (older rest : List Request) (s : State) (hr : ∀ r ∈ rest, r.port ≠ p) :
    (examineFrom older rest s).path p = s.path p ∧
      ∀ n, s.holds p n = false → (examineFrom older rest s).holds p n = false := by
  induction rest generalizing older s with
  | nil => exact ⟨rfl, fun _ h => h⟩
  | cons r rest ih =>
    obtain ⟨hrp, hrest⟩ := List.forall_mem_cons.mp hr
    rw [examineFrom_cons]
    split
    · obtain ⟨path, free⟩ := ih older (granted r.port r.segments s) hrest
      refine ⟨path.trans ((get_set ..).trans (if_neg hrp.symm)), fun n h => free n ?_⟩
      exact granted_leaves hrp h
    · exact ih _ s hrest

/-- A request leaves the list, which is examined (R92). -/
theorem withdraw_some (p : Port) (s : State) (h : ∃ r ∈ s.waitList, r.port = p) :
    withdraw p s = examine { s with waitList := s.waitList.filter fun r => r.port != p } :=
  if_pos (by simpa using h)

theorem noRequest_filter (p : Port) (s : State) :
    NoRequest { s with waitList := s.waitList.filter fun r => r.port != p } p := by
  intro r hr
  simpa using (List.mem_filter.mp hr).2

/-- An update of parts that the examination of the other port's requests neither reads nor changes. -/
structure Unread (p : Port) (f : State → State) : Prop where
  grantable : ∀ s older r, (f s).grantable older r = s.grantable older r
  granted : ∀ s k set, k ≠ p → granted k set (f s) = f (granted k set s)
  waitList : ∀ s, (f s).waitList = s.waitList
  waiting : ∀ s w, { f s with waitList := w } = f { s with waitList := w }

theorem Unread.examineFrom {p : Port} {f : State → State} (h : Unread p f) (older rest : List Request) (s : State)
    (hr : ∀ r ∈ rest, r.port ≠ p) : examineFrom older rest (f s) = f (examineFrom older rest s) := by
  induction rest generalizing older s with
  | nil => exact h.waiting s older
  | cons r rest ih =>
    obtain ⟨hrp, hrest⟩ := List.forall_mem_cons.mp hr
    rw [examineFrom_cons, examineFrom_cons, h.grantable, h.granted _ _ _ hrp, ih _ _ hrest, ih _ _ hrest]
    split <;> rfl

/-- A withdrawal of the port's own request does not look at such parts (R92). -/
theorem Unread.withdraw {p : Port} {f : State → State} (h : Unread p f) (s : State) :
    withdraw p (f s) = f (withdraw p s) := by
  by_cases hr : ∃ r ∈ s.waitList, r.port = p
  · have others := noRequest_filter p s
    rw [withdraw_some p _ (by rwa [h.waitList]), withdraw_some p s hr, h.waitList, h.waiting, examine, h.waitList,
      h.examineFrom [] _ _ others]
    rfl
  · have none : NoRequest s p := fun r hrs hrp => hr ⟨r, hrs, hrp⟩
    rw [withdraw_none p s none, withdraw_none p (f s) (by rwa [NoRequest, h.waitList])]

theorem unread_withPath (p : Port) (q : Path) : Unread p (withPath p q) where
  grantable _ _ _ := rfl
  granted s k set hk := by
    cases p <;> cases k
    case a.b | b.a => rfl
    case a.a | b.b => exact absurd rfl hk
  waitList _ := rfl
  waiting _ _ := rfl

/-- A release of nothing empties the path (R118). -/
theorem releaseAll_of_none {p : Port} {byAbort : Bool} {s : State} (h : ∀ n, s.holds p n = false) :
    releaseAll p byAbort s = withPath p (s.path p).toEmpty s := by
  rw [releaseAll_eq, releasedSegments_of_none h]; rfl

/-- A refusal acts after the port's release and withdrawal: what they lead to, its context and its table say
all. -/
theorem refuse_congr (p : Port) (kind : EventKind) (seg : Option SegId) (log : Bool) {s u : State}
    (h : withdraw p (releaseAll p false s) = withdraw p (releaseAll p false u))
    (hc : s.context p = u.context p) (ht : s.table = u.table) :
    refuse p kind seg log s = refuse p kind seg log u := by
  simp only [refuse, h, hc, ht]

/-- The refusal of a waiting phase: the request withdrawn, then the denial (R69, R92). -/
theorem refuse_waiting (p : Port) (kind : EventKind) (seg : Option SegId) (s : State)
    (hr : ∃ r ∈ s.waitList, r.port = p) (hh : ∀ n, s.holds p n = false) :
    refuse p kind seg (s.logsDenials p) s = deniedPhase p kind seg
      (examine { s with waitList := s.waitList.filter fun r => r.port != p }) := by
  have others := noRequest_filter p s
  generalize hv : ({ s with waitList := s.waitList.filter fun r => r.port != p } : State) = v at others ⊢
  obtain ⟨context, noRequest⟩ := examine_other p v others
  have leaves : (examine v).path p = v.path p ∧ ∀ n, v.holds p n = false → (examine v).holds p n = false :=
    examineFrom_leaves p [] v.waitList v others
  obtain ⟨path, free⟩ := leaves
  have table : (examine v).table = v.table := (examine_unexamined v).table
  have leads : withdraw p (releaseAll p false s) = withdraw p (releaseAll p false (examine v)) := by
    have kept : NoRequest (withPath p ((examine v).path p).toEmpty (examine v)) p := noRequest
    rw [releaseAll_of_none hh, releaseAll_of_none fun n => free n (by rw [← hv]; exact hh n), withdraw_none p _ kept,
      (unread_withPath p _).withdraw, withdraw_some p s hr, hv, path, ← hv]
    rfl
  have log : s.logsDenials p = (examine v).logsDenials p := by
    rw [logsDenials_eq, logsDenials_eq, pinnedBank, pinnedBank, context, table, ← hv]; rfl
  rw [log, refuse_congr p kind seg _ leads (by rw [context, ← hv]; rfl) (by rw [table, ← hv]),
    refuse_denied p kind seg _ noRequest]

/-- Settles O10: the wait limit is a refusal, of an address phase under way or of one that waits. -/
theorem waitLimitRefuses : Obligations.WaitLimitRefuses := by
  unfold Obligations.WaitLimitRefuses
  intro s p hs running
  refine ⟨fun addressing hw => (act_next _ s hs).trans ?_, fun waiting hr hh => (act_next _ s hs).trans ?_⟩
  · rw [if_pos ⟨running, .inr addressing⟩, refuse_denied p .denyWait none s hw]
  · rw [if_pos ⟨running, .inl waiting⟩, refuse_waiting p .denyWait none s hr hh]

end Sys2Proof.Machine
end

section
/-! PROOFS. The table controller's commands: loads into staging, and the take of a commit. -/

namespace Sys2Proof.Machine

-- One thread at a time elaborates this part: the compile stays within the check's memory.
set_option Elab.async false

/-! ### Arguments within their ranges (R159) -/

theorem routeArg_ofNat (i : RouteId) : routeArg (BitVec.ofNat 8 i.val) = some i := by
  have := i.isLt
  have value : (BitVec.ofNat 8 i.val).toNat = i.val := by rw [BitVec.toNat_ofNat]; omega
  simp [routeArg, value]

theorem profileArg_ofNat (i : ProfileId) : profileArg (BitVec.ofNat 8 i.val) = some i := by
  have := i.isLt
  have value : (BitVec.ofNat 8 i.val).toNat = i.val := by rw [BitVec.toNat_ofNat]; omega
  simp [profileArg, value]

theorem sevenBit_of_lt {b : Byte} (h : b.toNat < 128) : sevenBit b = true := by
  simpa [sevenBit, BitVec.msb_eq_decide] using h

theorem boolArg_of_gt {b : Byte} (h : 1 < b.toNat) : boolArg b = none := by
  rw [boolArg, if_neg (by rintro rfl; exact absurd h (by decide)), if_neg (by rintro rfl; exact absurd h (by decide))]

theorem boolArg_of_le {b : Byte} (h : b.toNat ≤ 1) : ∃ force, boolArg b = some force := by
  have value : b = 0 ∨ b = 1 := by bv_omega
  rcases value with rfl | rfl
  · exact ⟨false, rfl⟩
  · exact ⟨true, rfl⟩

/-- A number is read back from its two bytes (R184). -/
theorem word16_bytes (x : BitVec 16) : word16 (x.extractLsb' 8 8) (x.extractLsb' 0 8) = x := by
  rw [word16, BitVec.extractLsb'_append_extractLsb'_eq_extractLsb' (by decide)]
  simp

/-! ### Loads (R45, R49) -/

/-- A row that needs full rights, on a port that has them: the command, then the reception discarded. -/
theorem command_full (p : Port) (o : MgmtOp) (args : List Byte) (s : State) (ha : Accepts s p) (hf : FullRights s p) :
    command p o args s = .next (dropReception p (runCommand p o args s)) := by
  rw [command_accepted p o args s ha, executeCommand_full p o args s hf]

/-- A revision stops at 65535 (R45). -/
theorem satInc_word (k : BitVec 16) : satInc k = if k = 65535 then 65535 else k + 1 := by
  by_cases h : k = 65535
  · subst h; rfl
  · rw [satInc, if_neg (show k ≠ BitVec.allOnes 16 from h), if_neg h]

/-- What a load leaves of the table: the staging bank replaced, one more revision (R45). -/
theorem dropReception_loadStaging (p : Port) (f : Bank → Bank) (s : State) :
    dropReception p (loadStaging p f s) =
      if s.table.state = .opened then
        answered p .ok [] { s with
          table := { s.table.setOther (f s.table.other) with
            revision := if s.table.revision = 65535 then 65535 else s.table.revision + 1 } }
      else answered p .busy [] s := by
  unfold loadStaging
  split
  · rw [dropReception_respond, ← satInc_word]; rfl
  · exact dropReception_respond ..

/-- Settles O21: both loads are `loadStaging` of a bank with one record replaced. -/
theorem loadsWriteStaging : Obligations.LoadsWriteStaging := by
  unfold Obligations.LoadsWriteStaging
  intro s p ha hf
  refine ⟨fun i control matchAddr mask segments translate f hm hk ht => ?_,
    fun i flags w r credit amount period budget hamount hperiod => ?_⟩
  · refine (command_full p .routeLoad _ s ha hf).trans (congrArg _ ?_)
    show dropReception p (opRouteLoad ..) = _
    simp only [opRouteLoad, routeArg_ofNat, profileArg_ofNat, sevenBit_of_lt hm, sevenBit_of_lt hk, sevenBit_of_lt ht,
      Bool.and_self, if_true]
    rw [dropReception_loadStaging]
    unfold TableControl.setOther TableControl.other
    cases s.table.activeBank <;> rfl
  · refine (command_full p .policyLoad _ s ha hf).trans (congrArg _ ?_)
    show dropReception p (opPolicyLoad ..) = _
    simp only [opPolicyLoad, profileArg_ofNat]
    rw [if_pos ⟨hamount, hperiod⟩, dropReception_loadStaging]
    unfold TableControl.setOther TableControl.other
    cases s.table.activeBank <;> rfl

/-! ### The take of a commit (R35, R44, R48, R52, R53) -/

/-- The credit unit's branches, in the order of the statements (R35). -/
theorem adjustCredit_eq (old new : Profile) (c : Credit) : adjustCredit old new c = adjustedCredit old new c := by
  unfold adjustCredit adjustedCredit
  by_cases ho : old.creditMax = 0 <;> by_cases hn : new.creditMax = 0 <;>
    simp only [ho, hn, gt_iff_lt, ne_eq, not_true, not_false_iff, true_and, false_and, and_self, and_true, and_false,
      if_true, if_false]

/-- The state at a take, before the aborts of a forced one: roles and credits changed (R35, R53). -/
def taken (p : Port) (force : Bool) (s : State) : State :=
  { s with
    table := s.table.take p force
    credits := Vector.ofFn fun i =>
      adjustedCredit s.table.active.profiles[i] s.table.other.profiles[i] s.credits[i] }

/-- A take changes the table and the credits, then aborts under force, and answers (R53, R54). -/
theorem takeCommit_eq (p : Port) (force : Bool) (s : State) :
    takeCommit p force s =
      (let u := taken p force s
       let u := if force then
         forcedAborts s.table.activeGen (raise
           ⟨.commitForced, some p, none, none, none, BitVec.ofNat 8 (forcedCount s.table.activeGen u)⟩ u) else u
       respond p .ok (bytes16 u.table.activeGen) u) := by
  simp only [taken, ← adjustCredit_eq, ← active_take s.table p force]
  rfl

/-- TABLE COMMIT on a port with full rights is the command, and then the reception discarded. -/
theorem exec_tableCommit (p : Port) (expected : BitVec 16) (force : Byte) (s : State) (ha : Accepts s p)
    (hf : FullRights s p) :
    exec (.tableCommit p expected force) s = .next (dropReception p (opTableCommit p expected force s)) := by
  refine (command_full p .tableCommit _ s ha hf).trans (congrArg _ ?_)
  show dropReception p (opTableCommit p (word16 _ _) force s) = _
  rw [word16_bytes]

/-- A commit that no check refuses is taken (R52). -/
theorem opTableCommit_taken {p : Port} {force : Byte} {b : Bool} {s : State} (hb : boolArg force = some b)
    (opened : s.table.state = .opened) (valid : bankFailure s.table.other = none) :
    opTableCommit p s.table.revision force s = takeCommit p b s := by
  simp [opTableCommit, hb, opened, valid]

/-- Settles O23: the checks of TABLE COMMIT, one after the other, and its take. -/
theorem commitTakenOrRefused : Obligations.CommitTakenOrRefused := by
  unfold Obligations.CommitTakenOrRefused
  intro s p expected ha hf
  simp only [exec_tableCommit p expected _ s ha hf]
  refine ⟨fun force range => ?_, fun force range closed => ?_, fun force range opened stale => ?_,
    fun force i reason range opened current failing => ?_, fun opened current valid => ?_⟩
  · simp only [opTableCommit, boolArg_of_gt range, dropReception_respond]
  · obtain ⟨b, hb⟩ := boolArg_of_le range
    simp only [opTableCommit, hb]
    rw [if_pos closed, dropReception_respond]
  · obtain ⟨b, hb⟩ := boolArg_of_le range
    simp only [opTableCommit, hb]
    rw [if_neg (not_not_intro opened), if_pos stale, dropReception_respond]
  · obtain ⟨b, hb⟩ := boolArg_of_le range
    simp only [opTableCommit, hb]
    rw [if_neg (not_not_intro opened), if_neg (not_not_intro current), failing]
    exact congrArg _ (dropReception_respond ..)
  · subst current
    rw [opTableCommit_taken rfl opened valid, takeCommit_eq]
    exact congrArg _ (dropReception_respond ..)

end Sys2Proof.Machine
end

section
/-! PROOFS. The forced take: the aborts of the contexts pinned to the generation that retires. -/

namespace Sys2Proof.Machine

-- One thread at a time elaborates this part: the compile stays within the check's memory.
set_option Elab.async false

/-! ### An abort with a waiting request (R83) -/

theorem unread_context_table (p : Port) (c : Context) (t : TableControl) :
    Unread p fun s => withContext p c { s with table := t } where
  grantable _ _ _ := rfl
  granted s k set hk := by
    cases p <;> cases k
    case a.b | b.a => rfl
    case a.a | b.b => exact absurd rfl hk
  waitList _ := rfl
  waiting _ _ := rfl

/-- A withdrawal leaves the port's context, and no request of the port (R92). -/
theorem withdraw_own (p : Port) (s : State) :
    (withdraw p s).context p = s.context p ∧ NoRequest (withdraw p s) p := by
  by_cases h : ∃ r ∈ s.waitList, r.port = p
  · rw [withdraw_some p s h]
    exact examine_other p _ (noRequest_filter p s)
  · have none : NoRequest s p := fun r hr hp => h ⟨r, hr, hp⟩
    rw [withdraw_none p s none]
    exact ⟨rfl, none⟩

/-- What an abort does: the request, if any, is withdrawn, and then as without one (R83). -/
theorem abort_withdrawn (p : Port) (reason : AbortReason) (s : State)
    (h : reason.reaches (s.context p).state = true) : abort p reason s = abortedState p (withdraw p s) := by
  obtain ⟨context, -⟩ := withdraw_own p s
  have table := (withdraw_unexamined p s).table
  have pinned : releasePin p (modContext p (fun c =>
      { c with state := .aborted, waitTimer := none, idleTimer := none }) s) =
      withContext p { s.context p with state := .aborted, waitTimer := none, idleTimer := none, pin := none }
        { s with table := unpinnedTable p s } := by
    rw [releasePin_eq]
    cases p <;> rfl
  rw [abort, if_pos h]
  dsimp only
  rw [pinned, (unread_context_table p _ _).withdraw, releaseAll_eq, abortHold_eq, abortedState, context,
    unpinnedTable_eq p (withdraw p s), context, table, unpinnedTable_eq]
  cases p <;> rfl

/-- Where no other port waits, a withdrawal grants nothing (R92). -/
theorem withdraw_alone (p : Port) (s : State) (h : (∀ r ∈ s.waitList, r.port = p) ∨ NoRequest s p) :
    withdraw p s = { s with waitList := s.waitList.filter fun r => r.port != p } := by
  by_cases hr : ∃ r ∈ s.waitList, r.port = p
  · have own : ∀ r ∈ s.waitList, r.port = p := h.resolve_right fun none => hr.elim fun r h => none r h.1 h.2
    rw [withdraw_some p s hr]
    refine examine_nil _ ?_
    simpa [List.filter_eq_nil_iff] using own
  · have none : NoRequest s p := fun r hrs hrp => hr ⟨r, hrs, hrp⟩
    rw [withdraw_none p s none, List.filter_eq_self.mpr fun r hrs => by simpa using none r hrs]

/-! ### The contexts a forced take reaches (R54) -/

/-- A context with a pin aborted, another left as it is. -/
def dismissed (p : Port) (s : State) : State := if (s.context p).pin.isSome then abortedState p s else s

/-- Both contexts dismissed, with no request left. -/
def bothDismissed (p : Port) (s : State) : State :=
  { dismissed (otherPort p) (dismissed p s) with waitList := [] }

theorem abort_alone (p : Port) (reason : AbortReason) (s : State) (h : reason.reaches (s.context p).state = true)
    (alone : (∀ r ∈ s.waitList, r.port = p) ∨ NoRequest s p) :
    abort p reason s = abortedState p { s with waitList := s.waitList.filter fun r => r.port != p } := by
  rw [abort_withdrawn p reason s h, withdraw_alone p s alone]

theorem dismissed_context (p k : Port) (s : State) : (dismissed p s).context k =
    if k = p ∧ (s.context p).pin.isSome then
      { s.context k with state := .aborted, waitTimer := none, idleTimer := none, pin := none }
    else s.context k := by
  unfold dismissed
  cases (s.context p).pin.isSome
  · rw [if_neg nofun, if_neg nofun]
  · rw [if_pos rfl]
    cases p <;> cases k <;> rfl

theorem dismissed_path (p k : Port) (s : State) : (dismissed p s).path k =
    if k = p ∧ (s.context p).pin.isSome then (s.path k).toEmpty else s.path k := by
  unfold dismissed
  cases (s.context p).pin.isSome
  · rw [if_neg nofun, if_neg nofun]
  · rw [if_pos rfl]
    cases p <;> cases k <;> rfl

theorem dismissed_engine (p k : Port) (s : State) : (dismissed p s).engine k =
    if k = p ∧ (s.context p).pin.isSome then unheldEngine (s.engine k) else s.engine k := by
  unfold dismissed
  cases (s.context p).pin.isSome
  · rw [if_neg nofun, if_neg nofun]
  · rw [if_pos rfl]
    cases p <;> cases k <;> rfl

theorem dismissed_table (p : Port) (s : State) : (dismissed p s).table = s.table.unpin (s.context p).pin := by
  unfold dismissed
  split
  · exact unpinnedTable_eq p s
  next h => rw [Option.not_isSome_iff_eq_none.mp h]; rfl

theorem dismissed_frame (p : Port) (s : State) :
    (dismissed p s).credits = s.credits ∧ (dismissed p s).log = s.log ∧ (dismissed p s).mgmt = s.mgmt ∧
      (dismissed p s).waitList = s.waitList := by
  unfold dismissed
  split <;> exact ⟨rfl, rfl, rfl, rfl⟩

theorem dismissed_waiting (p : Port) (s : State) (w : List Request) :
    { dismissed p s with waitList := w } = dismissed p { s with waitList := w } := by
  unfold dismissed
  rw [show State.context { s with waitList := w } p = s.context p from rfl]
  by_cases h : (s.context p).pin.isSome = true
  · rw [if_pos h, if_pos h]; rfl
  · rw [if_neg h, if_neg h]

/-- A context that holds segments has a pin: its segments are released (R83, R96). -/
theorem dismissed_segment (p : Port) (s : State) (n : SegId)
    (hh : s.holds p n = true → (s.context p).pin.isSome = true) : (dismissed p s).segment n =
      if (s.segment n).heldBy = some p then (s.segment n).released true ((s.path p).completionOf n)
      else s.segment n := by
  unfold dismissed
  by_cases hp : (s.context p).pin.isSome = true
  · rw [if_pos hp]
    exact Vector.getElem_ofFn ..
  · rw [if_neg hp, if_neg fun held => hp (hh ((holds_iff ..).mpr held))]

theorem eq_otherPort {p k : Port} (h : k ≠ p) : k = otherPort p := by
  cases p <;> cases k
  case a.b | b.a => rfl
  case a.a | b.b => exact absurd rfl h

section bothDismissed

variable (p k : Port) (s : State)

theorem bothDismissed_context : (bothDismissed p s).context k =
    if (s.context k).pin.isSome then
      { s.context k with state := .aborted, waitTimer := none, idleTimer := none, pin := none }
    else s.context k := by
  show (dismissed _ (dismissed p s)).context k = _
  cases p <;> cases k <;> simp [dismissed_context, otherPort]

theorem bothDismissed_path : (bothDismissed p s).path k =
    if (s.context k).pin.isSome then (s.path k).toEmpty else s.path k := by
  show (dismissed _ (dismissed p s)).path k = _
  cases p <;> cases k <;> simp [dismissed_context, dismissed_path, otherPort]

theorem bothDismissed_engine : (bothDismissed p s).engine k =
    if (s.context k).pin.isSome then unheldEngine (s.engine k) else s.engine k := by
  show (dismissed _ (dismissed p s)).engine k = _
  cases p <;> cases k <;> simp [dismissed_context, dismissed_engine, otherPort]

theorem bothDismissed_eq : bothDismissed p s = dismissed (otherPort p) (dismissed p { s with waitList := [] }) := by
  rw [bothDismissed, dismissed_waiting, dismissed_waiting]

theorem bothDismissed_frame :
    (bothDismissed p s).credits = s.credits ∧ (bothDismissed p s).log = s.log ∧
      (bothDismissed p s).mgmt = s.mgmt := by
  obtain ⟨c, l, m, -⟩ := dismissed_frame (otherPort p) (dismissed p s)
  obtain ⟨c', l', m', -⟩ := dismissed_frame p s
  exact ⟨c.trans c', l.trans l', m.trans m'⟩

/-- Pins on a generation the table controller no longer counts leave it as it is (R54). -/
theorem bothDismissed_table (h : ∀ k, s.table.unpin (s.context k).pin = s.table) :
    (bothDismissed p s).table = s.table := by
  show (dismissed _ (dismissed p s)).table = _
  rw [dismissed_table, dismissed_table, h p, dismissed_context, if_neg fun e => (otherPort_ne p) e.1, h]

theorem bothDismissed_segment (n : SegId) (hh : ∀ k, s.holds k n = true → (s.context k).pin.isSome = true) :
    (bothDismissed p s).segment n = (s.segment n).cleared fun k => (s.path k).completionOf n := by
  have own := dismissed_segment p s n (hh p)
  have path : (dismissed p s).path (otherPort p) = s.path (otherPort p) := by
    rw [dismissed_path, if_neg fun e => (otherPort_ne p) e.1]
  have context : (dismissed p s).context (otherPort p) = s.context (otherPort p) := by
    rw [dismissed_context, if_neg fun e => (otherPort_ne p) e.1]
  have held : (dismissed p s).holds (otherPort p) n = true → s.holds (otherPort p) n = true := by
    rw [holds_iff, own]
    split
    · rw [released_heldBy]; nofun
    · exact (holds_iff ..).mpr
  show (dismissed _ (dismissed p s)).segment n = _
  rw [dismissed_segment _ _ _ fun e => by rw [context]; exact hh _ (held e), path, own, Segment.cleared]
  cases hk : (s.segment n).heldBy with
  | none => simp [hk]
  | some k =>
    by_cases hp : k = p
    · subst hp
      simp [released_heldBy]
    · have hq : k = otherPort p := eq_otherPort hp
      subst hq
      simp [hk, hp]

end bothDismissed

/-! ### The aborts of a forced take, in one order or the other (R54) -/

/-- One context's abort by a forced take, where the other does not wait with it. -/
theorem forced_alone (p : Port) (s : State) (b : Bool) (hb : b = (s.context p).pin.isSome)
    (reached : b = true → AbortReason.reaches .forced (s.context p).state = true)
    (idle : b = false → NoRequest s p) (alone : (∀ r ∈ s.waitList, r.port = p) ∨ NoRequest s p) :
    (if b then abort p .forced s else s) =
      dismissed p { s with waitList := s.waitList.filter fun r => r.port != p } := by
  cases b with
  | true => exact (abort_alone p .forced s (reached rfl) alone).trans (if_pos hb.symm).symm
  | false =>
    have kept : s.waitList.filter (fun r => r.port != p) = s.waitList :=
      List.filter_eq_self.mpr fun r hr => by simpa using idle rfl r hr
    rw [kept]
    exact (if_neg (by rw [← hb]; nofun)).symm

/-- What the aborts of a forced take find at a context: it is reached exactly with a pin, and waits exactly with
a request. -/
structure Forceable (g : BitVec 16) (s : State) (k : Port) : Prop where
  forced : forcedBy g (s.context k) = (s.context k).pin.isSome
  waiting : (s.context k).state = .waiting ↔ ∃ r ∈ s.waitList, r.port = k
  pinned : (s.context k).state = .waiting → (s.context k).pin.isSome = true

theorem Forceable.reaches {g : BitVec 16} {s : State} {k : Port} (h : forcedBy g (s.context k) = true) :
    AbortReason.reaches .forced (s.context k).state = true := by
  rw [forcedBy, Bool.and_eq_true] at h
  exact h.2

theorem Forceable.noRequest {g : BitVec 16} {s : State} {k : Port} (h : Forceable g s k)
    (hw : (s.context k).state ≠ .waiting) : NoRequest s k :=
  fun r hr hk => hw (h.waiting.mpr ⟨r, hr, hk⟩)

/-- Where the contexts do not both wait, nothing is granted between the aborts. -/
theorem forcedAborts_alone {g : BitVec 16} {s : State} (h : ∀ k, Forceable g s k)
    (hw : (s.context .a).state ≠ .waiting ∨ (s.context .b).state ≠ .waiting) :
    forcedAborts g s = bothDismissed .a s := by
  have order : ¬ (forcedBy g (s.context .a) && forcedBy g (s.context .b) && (s.context .a).state == .waiting &&
      (s.context .b).state == .waiting) = true := by
    simp only [Bool.and_eq_true, beq_iff_eq, not_and]
    intro both hb
    exact hw.resolve_left (not_not_intro both.2) hb
  have idle (k : Port) : forcedBy g (s.context k) = false → NoRequest s k := fun hk => (h k).noRequest fun w => by
    rw [(h k).forced, (h k).pinned w] at hk
    cases hk
  have alone : (∀ r ∈ s.waitList, r.port = .a) ∨ NoRequest s .a := by
    rcases hw with ha | hb
    · exact .inr ((h .a).noRequest ha)
    · refine .inl fun r hr => ?_
      have := (h .b).noRequest hb r hr
      cases hp : r.port
      · rfl
      · exact absurd hp this
  rw [forcedAborts, if_neg order]
  dsimp only
  rw [forced_alone .a s _ (h .a).forced Forceable.reaches (idle .a) alone]
  generalize hv : dismissed .a { s with waitList := s.waitList.filter fun r => r.port != .a } = v
  have list : v.waitList = s.waitList.filter fun r => r.port != .a := by rw [← hv, (dismissed_frame _ _).2.2.2]
  have context : v.context .b = s.context .b := by rw [← hv, dismissed_context, if_neg fun e => nomatch e.1]; rfl
  have others : ∀ r ∈ v.waitList, r.port = .b := by
    rw [list]
    exact fun r hr => eq_otherPort (noRequest_filter .a s r hr)
  rw [forced_alone .b v _ (by rw [context]; exact (h .b).forced) (by rw [context]; exact Forceable.reaches)
    (fun hb r hr => idle .b hb r (by rw [list] at hr; exact (List.mem_filter.mp hr).1)) (.inl others),
    List.filter_eq_nil_iff.mpr fun r hr => by simpa using others r hr, bothDismissed_eq, ← hv, dismissed_waiting]
  rfl

/-- An examination takes a waiting context to ADDRESSING at most (R90). -/
theorem examineFrom_context (k : Port) (older rest : List Request) (s : State) :
    (examineFrom older rest s).context k = s.context k ∨
      (examineFrom older rest s).context k = { s.context k with state := .addressing } := by
  induction rest generalizing older s with
  | nil => exact .inl rfl
  | cons r rest ih =>
    rw [examineFrom_cons]
    split
    · have granted : (granted r.port r.segments s).context k = s.context k ∨
          (granted r.port r.segments s).context k = { s.context k with state := .addressing } := by
        by_cases hk : k = r.port
        · subst hk
          exact .inr (get_set_same ..)
        · exact .inl ((get_set ..).trans (if_neg hk))
      have rest := ih older (Machine.granted r.port r.segments s)
      rcases granted with hg | hg
      · rwa [hg] at rest
      · rw [hg] at rest
        exact .inr (rest.elim id id)
    · exact ih _ s

theorem withdraw_context (p k : Port) (s : State) :
    (withdraw p s).context k = s.context k ∨
      (withdraw p s).context k = { s.context k with state := .addressing } := by
  unfold withdraw
  split
  · exact examineFrom_context k [] _ _
  · exact .inl rfl

theorem withdraw_pin (p k : Port) (s : State) : ((withdraw p s).context k).pin = (s.context k).pin := by
  rcases withdraw_context p k s with h | h <;> rw [h]

/-- The abort of both waiting contexts: what the examination between them grants is released again. -/
theorem forced_pair {g : BitVec 16} {s : State} (p : Port) (h : ∀ k, Forceable g s k)
    (hw : ∀ k, (s.context k).state = .waiting) :
    abort (otherPort p) .forced (abort p .forced s) = bothDismissed p (withdraw p s) := by
  obtain ⟨own, noRequest⟩ := withdraw_own p s
  have reached : AbortReason.reaches .forced ((withdraw p s).context (otherPort p)).state = true := by
    rcases withdraw_context p (otherPort p) s with ho | ho
    · rw [ho, hw]; rfl
    · rw [ho]; rfl
  have pinned : ((withdraw p s).context (otherPort p)).pin.isSome = true := by
    rw [withdraw_pin]
    exact (h (otherPort p)).pinned (hw _)
  have first : abort p .forced s = dismissed p (withdraw p s) := by
    rw [abort_withdrawn p .forced s (by rw [hw]; rfl), dismissed, own, if_pos ((h p).pinned (hw p))]
  have context : (dismissed p (withdraw p s)).context (otherPort p) = (withdraw p s).context (otherPort p) := by
    rw [dismissed_context, if_neg fun e => (otherPort_ne p) e.1]
  have list : (dismissed p (withdraw p s)).waitList = (withdraw p s).waitList := (dismissed_frame ..).2.2.2
  have others : ∀ r ∈ (dismissed p (withdraw p s)).waitList, r.port = otherPort p := by
    rw [list]
    exact fun r hr => eq_otherPort (noRequest r hr)
  have second : dismissed (otherPort p) (dismissed p (withdraw p s)) =
      abortedState (otherPort p) (dismissed p (withdraw p s)) := if_pos (by rwa [context])
  rw [first, abort_alone _ _ _ (by rwa [context]) (.inl others),
    List.filter_eq_nil_iff.mpr fun r hr => by simpa using others r hr, bothDismissed, second]
  rfl

/-- What an examination between the aborts of two waiting contexts may have changed. -/
structure Between (s u : State) : Prop where
  engines : u.engines = s.engines
  mgmt : u.mgmt = s.mgmt
  table : u.table = s.table
  credits : u.credits = s.credits
  log : u.log = s.log
  pin : ∀ k, (u.context k).pin = (s.context k).pin
  unpinned : ∀ k, (s.context k).pin.isSome = false → u.context k = s.context k ∧ u.path k = s.path k
  holds : ∀ k n, u.holds k n = true → (s.context k).pin.isSome = false → s.holds k n = true
  alone : (s.context .a).state ≠ .waiting ∨ (s.context .b).state ≠ .waiting → u = s

theorem Between.refl (s : State) : Between s s where
  engines := rfl
  mgmt := rfl
  table := rfl
  credits := rfl
  log := rfl
  pin _ := rfl
  unpinned _ _ := ⟨rfl, rfl⟩
  holds _ _ h _ := h
  alone _ := rfl

/-- The aborts of a forced take: both contexts dismissed, whatever the examination between the aborts of two waiting
ones has granted (R54). -/
theorem forcedAborts_eq {g : BitVec 16} {s : State} (h : ∀ k, Forceable g s k) :
    ∃ p u, forcedAborts g s = bothDismissed p u ∧ Between s u := by
  by_cases hw : (s.context .a).state = .waiting ∧ (s.context .b).state = .waiting
  · obtain ⟨ha, hb⟩ := hw
    have waits : ∀ k, (s.context k).state = .waiting := fun k => match k with | .a => ha | .b => hb
    have pinned (k : Port) := (h k).pinned (waits k)
    let s' := { s with freeChoices := s.freeChoices + 1 }
    have h' : ∀ k, Forceable g s' k := fun k => ⟨(h k).forced, (h k).waiting, (h k).pinned⟩
    have order : ∃ p, forcedAborts g s = abort (otherPort p) .forced (abort p .forced s') := by
      rw [forcedAborts, if_pos (by simp [(h _).forced, pinned, ha, hb])]
      dsimp only
      split
      · exact ⟨.a, rfl⟩
      · exact ⟨.b, rfl⟩
    obtain ⟨p, hp⟩ := order
    have frame := withdraw_unexamined p s'
    exact ⟨p, withdraw p s', hp.trans (forced_pair p h' waits),
      { engines := frame.engines
        mgmt := frame.mgmt
        table := frame.table
        credits := frame.credits
        log := frame.log
        pin := fun k => withdraw_pin p k s'
        unpinned := fun k none => absurd (pinned k) (none ▸ nofun)
        holds := fun k _ _ none => absurd (pinned k) (none ▸ nofun)
        alone := fun some => absurd hb (some.resolve_left (not_not_intro ha)) }⟩
  · exact ⟨.a, s, forcedAborts_alone h (not_and_or.mp hw), .refl s⟩

/-! ### The forced commit (R53, R54) -/

/-- The state a forced take gives to its aborts. -/
def forcedTake (p : Port) (s : State) : State :=
  raise ⟨.commitForced, some p, none, none, none, BitVec.ofNat 8 (pinCount s s.table.activeGen)⟩ (taken p true s)

theorem forcedTake_context (p k : Port) (s : State) : (forcedTake p s).context k = s.context k := raise_context ..
theorem forcedTake_path (p k : Port) (s : State) : (forcedTake p s).path k = s.path k := raise_path ..
theorem forcedTake_waitList (p : Port) (s : State) : (forcedTake p s).waitList = s.waitList := raise_waitList ..

/-- A context with a pin is in a state a forced take reaches (R54, R65). -/
theorem reaches_forced (c : CtxState) : AbortReason.reaches .forced c = c.pinned := by cases c <;> rfl

section forced

variable {s : State} (h : Agreement s) (opened : s.table.state = .opened)
include h opened

/-- In OPEN every pin is on the active generation (R46, R48). -/
theorem pin_active (k : Port) : ∀ g ∈ (s.context k).pin, g = s.table.activeGen := fun g hg =>
  ((h.port k).generation g hg).resolve_right fun draining => by
    rw [opened] at draining
    cases draining.1

theorem forcedBy_active (k : Port) : forcedBy s.table.activeGen (s.context k) = (s.context k).pin.isSome := by
  have state := (h.port k).pin
  have active := pin_active h opened k
  rw [forcedBy, reaches_forced, ← state]
  cases hp : (s.context k).pin with
  | none => rfl
  | some g => simp [active g hp]

theorem forcedCount_eq : forcedCount s.table.activeGen s = pinCount s s.table.activeGen := by
  have one (k : Port) : (if forcedBy s.table.activeGen (s.context k) then 1 else 0) =
      if (s.context k).pin = some s.table.activeGen then 1 else 0 := by
    have active := pin_active h opened k
    rw [forcedBy_active h opened]
    cases hp : (s.context k).pin with
    | none => rfl
    | some g => rw [active g hp]; simp
  rw [forcedCount, pinCount, one, one]

theorem forceable (p k : Port) : Forceable s.table.activeGen (forcedTake p s) k where
  forced := by rw [forcedTake_context]; exact forcedBy_active h opened k
  waiting := by
    rw [forcedTake_context, forcedTake_waitList]
    have request := (h.port k).request
    constructor
    · intro waits
      rw [if_pos waits] at request
      obtain ⟨r, hr⟩ := List.exists_mem_of_length_pos (by rw [request]; exact Nat.one_pos)
      obtain ⟨hm, hp⟩ := List.mem_filter.mp hr
      exact ⟨r, hm, by simpa using hp⟩
    · rintro ⟨r, hr, hk⟩
      exact waiting_of_request (h.port k) fun none => none r hr hk
  pinned waits := by
    rw [forcedTake_context] at waits ⊢
    rw [(h.port k).pin, waits]
    rfl

/-- The forced take: the take, its event, and both contexts dismissed (R53, R54). -/
theorem exec_forcedCommit (p : Port) (ha : Accepts s p) (hf : FullRights s p)
    (valid : bankFailure s.table.other = none) :
    ∃ k u, Between (forcedTake p s) u ∧ exec (.tableCommit p s.table.revision 1) s =
      .next (answered p .ok (bytes16 (bothDismissed k u).table.activeGen) (bothDismissed k u)) := by
  obtain ⟨k, u, aborts, between⟩ := forcedAborts_eq (forceable h opened p)
  refine ⟨k, u, between, ?_⟩
  have count : forcedCount s.table.activeGen (taken p true s) = pinCount s s.table.activeGen := forcedCount_eq h opened
  rw [exec_tableCommit p _ _ s ha hf, opTableCommit_taken rfl opened valid, takeCommit_eq]
  dsimp only
  rw [count, if_pos rfl, show raise _ _ = forcedTake p s from rfl, aborts, dropReception_respond]

/-- After the take no pin is counted: the aborts leave the table controller as the take left it (R54). -/
theorem forced_table {p k : Port} {u : State} (between : Between (forcedTake p s) u) :
    (bothDismissed k u).table = s.table.take p true := by
  have table : u.table = s.table.take p true := between.table.trans (raise_table ..)
  rw [bothDismissed_table, table]
  intro j
  have active := pin_active h opened j
  rw [between.pin, forcedTake_context, table]
  cases hp : (s.context j).pin with
  | none => rfl
  | some g =>
    have old : g ≠ (s.table.take p true).activeGen := by
      rw [active g hp]
      show _ ≠ nextGeneration _
      unfold nextGeneration
      split
      next last => rw [last]; decide
      · bv_omega
    show (s.table.take p true).releasePin g = _
    rw [TableControl.releasePin, if_neg old, if_neg fun e => nomatch e.1]

end forced

/-- Only a context with a pin holds segments when the aborts begin (R65, R96). -/
theorem between_held {s u : State} (h : Agreement s) {p : Port} (between : Between (forcedTake p s) u) (k : Port)
    (n : SegId) (held : u.holds k n = true) : (u.context k).pin.isSome = true := by
  rw [between.pin, forcedTake_context]
  by_contra unpinned
  rw [Bool.not_eq_true] at unpinned
  have before : s.holds k n = true := by
    have := between.holds k n held (by rwa [forcedTake_context])
    rwa [State.holds, forcedTake, raise_segment] at this
  have holding := (h.port k).held n before
  rw [(h.port k).pin, CtxState.pinned, holding, Bool.or_true] at unpinned
  cases unpinned

theorem cleared_heldBy (x : Segment) (c : Port → Completion) : (x.cleared c).heldBy = none := by
  unfold Segment.cleared
  split
  · exact released_heldBy ..
  · assumption

/-- A dismissed context holds and requests nothing more (R83, R119). -/
theorem bothDismissed_pinned {k j : Port} {u : State} (hp : (u.context j).pin.isSome = true)
    (held : ∀ k n, u.holds k n = true → (u.context k).pin.isSome = true) :
    let t := bothDismissed k u
    (t.context j).state = .aborted ∧ (t.context j).pin = none ∧ (∀ m, t.holds j m = false) ∧ NoRequest t j ∧
      (t.path j).stage = .empty ∧ t.engine j = unheldEngine (u.engine j) := by
  dsimp only
  rw [bothDismissed_context, bothDismissed_path, bothDismissed_engine, if_pos hp, if_pos hp, if_pos hp]
  refine ⟨rfl, rfl, fun m => ?_, List.forall_mem_nil _, rfl, rfl⟩
  rw [State.holds, bothDismissed_segment _ _ _ fun k => held k m, cleared_heldBy]
  rfl

/-- A segment is cleared by the abort of the port that holds it, and otherwise left (R117). -/
theorem cleared_eq (x : Segment) (c : Port → Completion) : x.cleared c = match x.state with
    | .held h => x.released true (c h.port)
    | _ => x := by
  cases hx : x.state with
  | held h => exact cleared_held c hx
  | _ => exact cleared_notHeld c (by simp [hx])

/-- The log after a take's event, which the aborts leave (R175, R181). -/
theorem raise_log (e : Event) (s : State) : (raise e s).log =
    let records := s.log.records ++ [⟨s.log.nextSequence, s.log.timestamp, e⟩]
    if s.log.records.length < 32 then
      ⟨records, s.log.nextSequence + 1, s.log.lost, s.log.timestamp,
        ⟨alertLevel (s.record .a).alertMask records, alertLevel (s.record .b).alertMask records⟩⟩
    else { s.log with lost := satInc s.log.lost } := by
  dsimp only
  split
  next room => exact raise_room e s room
  next full => exact raise_full e s (Nat.le_of_not_lt full)

/-- Settles O24: in OPEN every pin is on the generation that retires, so that the take's aborts dismiss exactly the
pinned contexts; only two waiting ones can be granted anything between them, and that is released again. -/
theorem forcedCommitAborts : Obligations.ForcedCommitAborts := by
  unfold Obligations.ForcedCommitAborts
  intro s p ha hf opened valid h
  obtain ⟨k, u, between, exec⟩ := exec_forcedCommit h opened p ha hf valid
  have table := forced_table (k := k) h opened between
  have held := between_held h between
  obtain ⟨credits, log, mgmt⟩ := bothDismissed_frame k u
  refine ⟨_, exec, ?_, fun i => ?_, ?_, onPorts_of_forall fun q => ?_, fun alone m => ?_, ?_⟩
  · exact table
  · show (bothDismissed k u).credits[i] = _
    rw [credits, between.credits, forcedTake, raise_credits]
    exact Vector.getElem_ofFn ..
  · show (bothDismissed k u).log = _
    rw [log, between.log, forcedTake, raise_log]
    rfl
  · have engine : u.engine q = s.engine q := by
      rw [State.engine, between.engines, forcedTake, raise_engines]; rfl
    have pin : (u.context q).pin = (s.context q).pin := by rw [between.pin, forcedTake_context]
    split
    next pinned =>
      rw [← engine]
      exact bothDismissed_pinned (by rwa [pin]) held
    next unpinned =>
      obtain ⟨context, path⟩ := between.unpinned q (by
        rw [forcedTake_context]; exact Bool.not_eq_true _ ▸ unpinned)
      rw [forcedTake_context] at context
      rw [forcedTake_path] at path
      rw [← pin] at unpinned
      refine ⟨?_, ?_, ?_⟩
      · exact (bothDismissed_context k q u).trans ((if_neg unpinned).trans context)
      · exact (bothDismissed_path k q u).trans ((if_neg unpinned).trans path)
      · exact (bothDismissed_engine k q u).trans ((if_neg unpinned).trans engine)
  · have same := between.alone (by rwa [forcedTake_context, forcedTake_context])
    subst same
    show (bothDismissed k _).segment m = _
    rw [bothDismissed_segment _ _ _ fun j => held j m, cleared_eq, forcedTake, raise_segment]
    simp only [raise_path]
    rfl
  · rw [answered, withRecord_record_same, table]
    rfl

end Sys2Proof.Machine
end

section
/-! PROOFS. The address decision: a phase refused, and an admitted phase that claims or waits. -/

namespace Sys2Proof.Machine

-- One thread at a time elaborates this part: the compile stays within the check's memory.
set_option Elab.async false

/-! ### A phase refused (R23, R26, R29, R34, R69, R70) -/

/-- A limited profile without a credit lets no phase through (R34). -/
theorem requestCredit_refuses {f : Profile} {c : Credit} (h : f.creditMax ≠ 0 ∧ c.count = 0) :
    (requestCredit f c).1 = false := by
  rw [requestCredit, if_neg h.1, if_pos h.2]

/-- The set is refused with its lowest ISOLATED member, unless ANY leaves it another (R70). -/
theorem claimSet_isolated {s : State} {g : SegSet} {f : Profile} {n : SegId}
    (hn : ((segMembers g).find? fun n => (s.segment n).state == .isolated) = some n) :
    claimSet s g (routeAggregation g f) =
      if segSingle g = true ∨ f.fanOut = .all ∨ s.available g = 0 then .error n else .ok (s.available g) := by
  simp only [claimSet, hn, routeAggregation_any_iff, ← not_or, ne_eq, ite_not, or_assoc]

theorem claimSet_none {s : State} {g : SegSet} {f : Profile}
    (hn : ((segMembers g).find? fun n => (s.segment n).state == .isolated) = none) :
    claimSet s g (routeAggregation g f) = .ok g := by
  simp only [claimSet, hn]

/-- The first check that refuses is the one the decision acts on (R66). -/
theorem decideForward_refused (p : Port) (addr : Addr) (dir : Direction) (old : Context) (i : RouteId) (g : SegSet)
    (t : Addr) (policy : ProfileId) (bank : Bank) (e : RouteEntry) (s : State) {kind : EventKind}
    {seg : Option SegId} (hr : refusal old dir addr i bank g policy s = some (kind, seg)) :
    decideForward p addr dir (chainingPasses bank old i) e g t policy bank.profiles[policy] s =
      refuse p kind seg (bank.profiles[policy]).logDenials s := by
  unfold refusal at hr
  unfold decideForward
  dsimp only at hr ⊢
  split at hr
  next chain =>
    cases hr
    rw [if_pos (by simpa using mt (chainingPasses_iff bank old i).mp (not_not_intro chain))]
  next chain =>
  rw [if_neg (by simpa using (chainingPasses_iff bank old i).mpr chain)]
  split at hr
  next direction =>
    cases hr
    rw [if_pos ((directionRefused_iff ..).mpr direction)]
  next direction =>
  rw [if_neg (mt (directionRefused_iff ..).mp direction)]
  split at hr
  next n hn =>
    rw [claimSet_isolated hn]
    split at hr
    next down =>
      cases hr
      rw [if_pos down]
    next up =>
      rw [if_neg up]
      split at hr
      next credit =>
        cases hr
        simp only [requestCredit_refuses credit, Bool.not_false, if_true]
      · cases hr
  next hn =>
    rw [claimSet_none hn]
    split at hr
    next credit =>
      cases hr
      simp only [requestCredit_refuses credit, Bool.not_false, if_true]
    · cases hr

section selected

variable (p : Port) (addr : Addr) (dir : Direction) (i : RouteId) (policy : Option ProfileId) (s : State)

theorem selected_upstream : ((selected p addr dir i policy s).context p).upstream = some addr := by
  obtain ⟨g, hs⟩ := selected_eq p addr dir i policy s
  rw [hs]
  cases p <;> rfl

theorem selected_route : ((selected p addr dir i policy s).context p).route = some i := by
  obtain ⟨g, hs⟩ := selected_eq p addr dir i policy s
  rw [hs]
  cases p <;> rfl

theorem selected_waitList : (selected p addr dir i policy s).waitList = s.waitList := by
  obtain ⟨g, hs⟩ := selected_eq p addr dir i policy s
  rw [hs]
  rfl

/-- The refusal of a phase whose entry is selected (R37, R69). -/
theorem refuse_selected (kind : EventKind) (seg : Option SegId) (log : Bool) (hw : NoRequest s p) :
    let u := selected p addr dir i policy s
    refuse p kind seg log u =
      (let v := refusedState p u
       let v := if log then raise ⟨kind, some p, seg, some addr, some i, 0⟩ v else v
       if (u.context p).pin = some u.table.activeGen then deniedState i v else v) := by
  have hw' : NoRequest (selected p addr dir i policy s) p := by rwa [NoRequest, selected_waitList]
  dsimp only
  rw [refuse_eq _ _ _ _ _ hw', selected_upstream, selected_route]

/-- The decision looks at the context as the address report found it. -/
theorem chainingPasses_taken (bank : Bank) :
    chainingPasses bank ((takenAddress p addr dir s).context p) i = chainingPasses bank (s.context p) i := by
  cases p <;> rfl

end selected

/-- The decision on a FORWARD entry is made in the state its selection leads to (R66, R68). -/
theorem execAddress_forward {p : Port} {addr : Addr} {dir : Direction} {i : RouteId} {g : SegSet} {t : Addr}
    {f : ProfileId} {s : State} (h : AddressReported s p) (ha : addr ≠ (s.record p).effAddr)
    (hl : lookup (searchedBank p (searching p (takenAddress p addr dir s))) p addr = some i)
    (he : ((searchedBank p (searching p (takenAddress p addr dir s))).entries[i]).action = .forward g t f) :
    execAddress p addr dir s =
      let bank := searchedBank p (searching p (takenAddress p addr dir s))
      .next (decideForward p addr dir (chainingPasses bank (s.context p) i) bank.entries[i] g t f bank.profiles[f]
        (selected p addr dir i (some f) s)) := by
  rw [execAddress_routed p addr dir s h ha, decideRoute_forward p addr dir i g t f _ hl he]
  dsimp only
  rw [chainingPasses_taken]
  rfl

/-- Settles O37: the entry or the first failing check names the refusal of the selected phase. -/
theorem addressRefusals : Obligations.AddressRefusals := by
  unfold Obligations.AddressRefusals
  intro s p addr dir i h hw ha looked bank hl entry result
  refine ⟨fun he => ?_, fun g t f kind seg he hr => ?_⟩
  · show execAddress p addr dir s = _
    rw [execAddress_routed p addr dir s h ha, decideRoute_deny p addr dir i _ hl he]
    exact congrArg _ (refuse_selected p addr dir i none s .denyRule none true hw)
  · show execAddress p addr dir s = _
    have refused : refusal (s.context p) dir addr i bank g f (selected p addr dir i (some f) s) = some (kind, seg) := by
      rw [refusal_selected]
      exact hr
    rw [execAddress_forward h ha hl he]
    dsimp only
    rw [decideForward_refused _ _ _ _ _ _ _ _ _ _ _ refused]
    exact congrArg _ (refuse_selected p addr dir i (some f) s kind seg _ hw)

/-! ### An admitted phase without kept segments (R70 to R72, R88 to R90) -/

theorem holds_of_outside {s : State} {p : Port} {set : SegSet} (h : set &&& ~~~(s.heldSet p) = 0) (n : SegId)
    (hn : segMem set n = true) : s.holds p n = true := by
  have bit := congrArg (fun x : SegSet => segMem x n) h
  rw [← segMem_heldSet]
  unfold segMem at hn bit ⊢
  simpa [hn] using bit

/-- Without kept segments an admitted phase releases what it holds, then its request reaches the arbiter (R72). -/
theorem decideForward_requests (p : Port) (addr : Addr) (dir : Direction) (old : Context) (i : RouteId) (g : SegSet)
    (t : Addr) (policy : ProfileId) (bank : Bank) (e : RouteEntry) (s : State)
    (hr : refusal old dir addr i bank g policy s = none)
    (hk : ¬ ((s.context p).state.forwarding = true ∧
      ∀ n, segMem (s.available g) n = true → s.holds p n = true)) :
    let claim := claimOf addr dir e g t bank.profiles[policy]
    decideForward p addr dir (chainingPasses bank old i) e g t policy bank.profiles[policy] s =
      request p (s.available g) (if claim.aggregation = .any then .drop else .withdraw)
        (releaseAll p false (admitted p policy bank.profiles[policy] claim s)) := by
  obtain ⟨chain, direction, available, credit⟩ := refusal_none hr
  unfold decideForward
  simp only [chain, direction, available]
  rw [if_neg (by decide), if_neg (by decide), if_neg (by rw [requestCredit_admits credit]; decide),
    placeClaim, if_neg, admitted_eq _ _ _ _ _ credit]
  · refine congrArg (request p _ _) (congrArg (releaseAll p false) ?_)
    rw [modContext_eq, modContext_eq, modPath_eq, withContext_withContext, withContext_context_same]
    rfl
  · rw [modContext_context_same]
    rintro ⟨forwarding, within⟩
    exact hk ⟨forwarding, holds_of_outside within⟩

theorem admitted_waitList (p : Port) (policy : ProfileId) (f : Profile) (claim : Claim) (s : State) :
    (admitted p policy f claim s).waitList = s.waitList := by
  unfold admitted
  dsimp only
  split <;> rfl

/-- A release isolates no segment (R94). -/
theorem released_isolated {x : Segment} {byAbort : Bool} {c : Completion} (h : x.state ≠ .isolated) :
    (x.released byAbort c).state ≠ .isolated := by
  cases hx : x.state with
  | held k =>
    cases hd : k.deferred with
    | false => rw [released_inControl _ _ hx hd]; nofun
    | true =>
      cases hw : k.winnerStop with
      | false => rw [released_deferred _ _ hx hd hw]; nofun
      | true => rw [released_winnerStop _ _ hx hd hw]; nofun
  | _ => rwa [released_notHeld _ _ (by simp [hx])]

theorem releaseAll_withPath (p : Port) (byAbort : Bool) (s : State) : releaseAll p byAbort s =
    withPath p (s.path p).toEmpty { s with segments := releasedSegments p byAbort s } := releaseAll_eq ..

theorem releaseAll_segment (p : Port) (byAbort : Bool) (s : State) (n : SegId) :
    (releaseAll p byAbort s).segment n =
      if (s.segment n).heldBy = some p then (s.segment n).released byAbort ((s.path p).completionOf n)
      else s.segment n := by
  rw [releaseAll_eq]
  exact Vector.getElem_ofFn ..

theorem releaseAll_isolated {p : Port} {byAbort : Bool} {s : State} {n : SegId}
    (h : (s.segment n).state ≠ .isolated) :
    ((releaseAll p byAbort s).segment n).state ≠ .isolated := by
  rw [releaseAll_segment]
  split
  · exact released_isolated h
  · exact h

/-- A request is grantable: every member IDLE, and disjoint from the older requests (R89). -/
theorem grantable_iff (s : State) (older : List Request) (r : Request) : s.grantable older r = true ↔
    (∀ n : SegId, segMem r.segments n = true → (s.segment n).state = .idle) ∧
      ∀ o ∈ older, o.segments &&& r.segments = 0 := by
  simp [State.grantable, State.allIdle, mem_segMembers]

theorem available_isolated {s : State} {g : SegSet} {n : SegId} (h : segMem (s.available g) n = true) :
    (s.segment n).state ≠ .isolated := by
  rw [State.available, segMem_segSetOf] at h
  simpa using (Bool.and_eq_true_iff.mp h).2

/-- A request that names no ISOLATED segment and cannot be granted waits (R88). -/
theorem request_waits {p : Port} {set : SegSet} {handling : IsolationHandling} {s : State}
    (hn : ∀ n, segMem set n = true → (s.segment n).state ≠ .isolated)
    (hg : ¬ s.grantable s.waitList ⟨p, set, handling⟩ = true) :
    request p set handling s = { withContext p { s.context p with state := .waiting } s with
      waitList := s.waitList ++ [⟨p, set, handling⟩] } := by
  have named : (segMembers set).filter (fun n => (s.segment n).state == .isolated) = [] := by
    rw [List.filter_eq_nil_iff]
    intro n hm
    simpa using hn n ((mem_segMembers ..).mp hm)
  rw [request, if_neg hg]
  show List.foldl _ _ ((segMembers set).filter fun n => (s.segment n).state == .isolated) = _
  rw [named]
  rfl

/-- Settles O38: the released phase requests its available set, which names no ISOLATED segment, and is granted or
waits. -/
theorem admittedPhaseClaims : Obligations.AdmittedPhaseClaims := by
  unfold Obligations.AdmittedPhaseClaims
  intro s p addr dir i g t f h ha looked bank set hl he hr _ hk claim u u' ready
  have refused : refusal (s.context p) dir addr i bank g f (selected p addr dir i (some f) s) = none := by
    rw [refusal_selected]
    exact hr
  have notKept : ¬ (((selected p addr dir i (some f) s).context p).state.forwarding = true ∧
      ∀ n, segMem ((selected p addr dir i (some f) s).available g) n = true →
        (selected p addr dir i (some f) s).holds p n = true) := by
    rw [selected_state, selected_available]
    simpa using hk
  have released : u' = releaseAll p false u := (releaseAll_withPath p false u).symm
  have waitList : u'.waitList = s.waitList := by
    rw [released, releaseAll_eq]
    exact (admitted_waitList p f bank.profiles[f] claim _).trans (selected_waitList ..)
  have run : exec (.address p addr dir) s =
      .next (request p set (if claim.aggregation = .any then .drop else .withdraw) u') := by
    show execAddress p addr dir s = _
    rw [execAddress_forward h ha hl he]
    dsimp only
    rw [decideForward_requests _ _ _ _ _ _ _ _ _ _ _ refused notKept, selected_available, released]
  have grantable : ready ↔
      u'.grantable u'.waitList ⟨p, set, if claim.aggregation = .any then .drop else .withdraw⟩ = true := by
    rw [grantable_iff, waitList]
  have up : ∀ n, segMem set n = true → (u'.segment n).state ≠ .isolated := by
    intro n hn
    rw [released]
    refine releaseAll_isolated ?_
    rw [admitted_segment, selected_segment]
    exact available_isolated hn
  clear_value u'
  refine ⟨fun hready => ?_, fun hready => ?_⟩
  · rw [run, request, if_pos (grantable.mp hready), grant_eq]
  · rw [run, request_waits up (mt grantable.mpr hready), waitList]

end Sys2Proof.Machine
end

section
/-! PROOFS. The table controller's reads and reports, TABLE DISCARD and the end of a copy-back. -/

namespace Sys2Proof.Machine

/-! ### Reads and reports (R50, R51, R164) -/

/-- A row that needs no rights: the command, then the reception discarded. -/
theorem command_unrestricted (p : Port) (o : MgmtOp) (args : List Byte) (s : State) (ha : Accepts s p)
    (h : needsFull o p args = false) : command p o args s = .next (dropReception p (runCommand p o args s)) := by
  rw [command_accepted p o args s ha, executeCommand_unrestricted p o args s h]

/-- A read of one record of a bank: ACTIVE always, STAGING in OPEN (R50). -/
def readAnswer (p : Port) (staging : Bool) (record : Bank → List Byte) (s : State) : State :=
  match readableBank s.table staging with
  | some b => respond p .ok (record b) s
  | none => respond p .busy [] s

theorem readAnswer_active (p : Port) (record : Bank → List Byte) (s : State) :
    dropReception p (readAnswer p false record s) = answered p .ok (record s.table.active) s :=
  dropReception_respond ..

theorem readAnswer_staging (p : Port) (record : Bank → List Byte) (s : State) :
    dropReception p (readAnswer p true record s) =
      if s.table.state = .opened then answered p .ok (record s.table.other) s else answered p .busy [] s := by
  unfold readAnswer readableBank
  rw [if_pos rfl]
  by_cases opened : s.table.state = .opened
  · rw [if_pos opened, if_pos opened]
    exact dropReception_respond ..
  · rw [if_neg opened, if_neg opened]
    exact dropReception_respond ..

theorem exec_routeRead (p : Port) (role : Byte) (staging : Bool) (i : RouteId) (s : State) (ha : Accepts s p)
    (hr : stagingArg role = some staging) :
    exec (.routeRead p role (BitVec.ofNat 8 i.val)) s =
      .next (dropReception p (readAnswer p staging (fun b => routeBytes i b.entries[i]) s)) := by
  refine (command_unrestricted p .routeRead _ s ha rfl).trans (congrArg _ ?_)
  show dropReception p (opRouteRead p role (BitVec.ofNat 8 i.val) s) = _
  rw [opRouteRead, hr, routeArg_ofNat]
  rfl

theorem exec_policyRead (p : Port) (role : Byte) (staging : Bool) (i : ProfileId) (s : State) (ha : Accepts s p)
    (hr : stagingArg role = some staging) :
    exec (.policyRead p role (BitVec.ofNat 8 i.val)) s = .next (dropReception p
      (readAnswer p staging (fun b => profileBytes i b.profiles[i] ++ [(s.credits[i]).count]) s)) := by
  refine (command_unrestricted p .policyRead _ s ha rfl).trans (congrArg _ ?_)
  show dropReception p (opPolicyRead p role (BitVec.ofNat 8 i.val) s) = _
  rw [opPolicyRead, hr, profileArg_ofNat]
  rfl

/-- Settles O22: a read is one record of the bank its role names, a report is its fields in order. -/
theorem tableReadsReport : Obligations.TableReadsReport := by
  unfold Obligations.TableReadsReport
  intro s p ha active staging bit route profile
  have routes (i : RouteId) (e : RouteEntry) : routeBytes i e = route i e := by
    cases he : e.action <;> simp [routeBytes, controlByte, route, bit, he]
  have profiles (i : ProfileId) (f : Profile) : profileBytes i f ++ [(s.credits[i]).count] = profile i f := by
    cases hf : f.fanOut <;> simp [profileBytes, flagByte, profile, bit, hf]
  refine ⟨fun i => ⟨?_, ?_⟩, fun i => ⟨?_, ?_⟩, ?_, fun i => ?_⟩
  · rw [exec_routeRead p 0 false i s ha rfl, readAnswer_active, routes]; rfl
  · rw [exec_routeRead p 1 true i s ha rfl, readAnswer_staging, routes]; rfl
  · rw [exec_policyRead p 0 false i s ha rfl, readAnswer_active, profiles]; rfl
  · rw [exec_policyRead p 1 true i s ha rfl, readAnswer_staging, profiles]; rfl
  · refine (command_unrestricted p .tableStatus _ s ha rfl).trans (congrArg _ ?_)
    refine (dropReception_respond ..).trans ?_
    unfold tableStateCode
    rfl
  · refine (command_unrestricted p .counterRead _ s ha rfl).trans (congrArg _ ?_)
    show dropReception p (opCounterRead p (BitVec.ofNat 8 i.val) s) = _
    rw [opCounterRead, routeArg_ofNat]
    exact dropReception_respond ..

/-! ### TABLE DISCARD and the end of a copy-back (R45, R56, R58, R59) -/

/-- Settles O25: a discard leaves its command pending; the end of the copy-back answers its cause. -/
theorem discardAndCopyBack : Obligations.DiscardAndCopyBack := by
  unfold Obligations.DiscardAndCopyBack
  constructor
  · intro s p ha hf
    refine (command_full p .tableDiscard _ s ha hf).trans (congrArg _ ?_)
    show dropReception p (opTableDiscard p s) = _
    unfold opTableDiscard
    split
    · exact dropReception_respondPending ..
    · exact dropReception_respond ..
  · intro s hs copying t t' u
    have copied : modTable (fun k =>
        { k.setOther k.active with state := .opened, revision := 0, copyBack := none }) s = u := by
      unfold modTable TableControl.setOther TableControl.active
      cases hb : s.table.activeBank <;> simp only [u, t', t, hb]
    have gen : u.table.activeGen = s.table.activeGen := by rw [← copied]; exact activeGen_setOther ..
    refine (act_next _ s hs).trans (congrArg _ ?_)
    rw [if_pos copying, endCopyBack, copied]
    cases s.table.copyBack with
    | none => rfl
    | some cause =>
      cases cause with
      | commit q => rw [← gen]; rfl
      | discard q owed => cases owed <;> rfl

end Sys2Proof.Machine
end

section
/-! PROOFS. Agreement of the records but for a port on its way: what one port's agreement rests on, and what keeps
it. -/

namespace Sys2Proof.Machine

-- One thread at a time elaborates this part: the compile stays within the check's memory.
set_option Elab.async false

/-! ### What the agreement of one port rests on -/

/-- Port q waits for segment n. -/
def Asked (s : State) (q : Port) (n : SegId) : Prop :=
  ∃ r ∈ s.waitList, r.port = q ∧ segMem r.segments n = true

/-- Port q has in `u` the pin, the route and the number of requests it has in `s`, searches the same bank, and holds
and asks for no further segment. -/
structure Backed (s u : State) (q : Port) : Prop where
  pin : (u.context q).pin = (s.context q).pin
  route : (u.context q).route = (s.context q).route
  count : (u.waitList.filter fun r => r.port == q).length = (s.waitList.filter fun r => r.port == q).length
  asked : ∀ n, Asked u q n → Asked s q n
  held : ∀ n, u.holds q n = true → s.holds q n = true
  known : ∀ g ∈ (s.context q).pin, pinAgrees u.table g
  bank : ∀ g ∈ (s.context q).pin, u.table.bankOf (some g) = s.table.bankOf (some g)

theorem mem_of_filter_eq {l l' : List Request} {q : Port} {r : Request}
    (h : (l.filter fun r => r.port == q) = l'.filter fun r => r.port == q) (hr : r ∈ l) (hq : r.port = q) :
    r ∈ l' := by
  have mem : r ∈ l.filter fun r => r.port == q := List.mem_filter.mpr ⟨hr, beq_iff_eq.mpr hq⟩
  rw [h] at mem
  exact (List.mem_filter.mp mem).1

/-- The port's requests are the same ones. -/
theorem asked_of_filter_eq {s u : State} {q : Port} {n : SegId}
    (h : (u.waitList.filter fun r => r.port == q) = s.waitList.filter fun r => r.port == q) (ha : Asked u q n) :
    Asked s q n := by
  obtain ⟨r, hr, hq, hn⟩ := ha
  exact ⟨r, mem_of_filter_eq h hr hq, hq, hn⟩

/-- The states that go with a segment or a request go with a pin (R65). -/
theorem pinned_of_holding {c : CtxState} (h : c.holding = true) : c.pinned = true := by
  rw [CtxState.pinned, h, Bool.or_true]

theorem not_holding_of_unpinned {c : CtxState} (h : c.pinned = false) : c.holding = false :=
  Bool.eq_false_iff.mpr fun holding => by rw [pinned_of_holding holding] at h; cases h

/-- A port that holds or asks for a segment has a pin (R65). -/
theorem exists_pin {s : State} {q : Port} {n : SegId} (h : PortAgrees s q) (hn : s.holds q n = true ∨ Asked s q n) :
    ∃ g, (s.context q).pin = some g := by
  rw [← Option.isSome_iff_exists, h.pin]
  rcases hn with held | ⟨r, hr, hq, -⟩
  · exact pinned_of_holding (h.held n held)
  · rw [waiting_of_request h fun none => none r hr hq]; rfl

/-- A port goes from one state to another that holds the same, with the same pin, route and requests. -/
theorem PortAgrees.moved {s u : State} {q : Port} (h : PortAgrees s q) (b : Backed s u q)
    (pinned : (u.context q).state.pinned = (s.context q).state.pinned)
    (holding : (u.context q).state.holding = (s.context q).state.holding)
    (stage : stageAgrees (u.context q).state (u.path q).stage = true)
    (clock : (u.context q).state = .waiting ∨ (u.context q).state = .addressing → (u.engine q).hold = .address)
    (naked : (u.engine q).addressNaked = true → (u.context q).state.passive = true ∨
      (u.context q).state = .aborted) : PortAgrees u q where
  pin := by rw [b.pin, pinned]; exact h.pin
  held n hn := by rw [holding]; exact h.held n (b.held n hn)
  request := by
    have waits (c : CtxState) : c = .waiting ↔ c.pinned = true ∧ c.holding = false := by cases c <;> decide
    rw [b.count, h.request]
    simp only [waits, pinned, holding]
  stage := stage
  clock := clock
  naked := naked
  generation g hg := b.known g (b.pin ▸ hg)
  route n hn := by
    have before : s.holds q n = true ∨ Asked s q n := hn.imp (b.held n) (b.asked n)
    obtain ⟨g, hg⟩ := exists_pin h before
    obtain ⟨i, hi, hr⟩ := h.route n before
    refine ⟨i, b.route ▸ hi, ?_⟩
    rw [b.pin, hg, b.bank g hg, ← hg]
    exact hr

/-- A port stays in its state, with the same stage, clock and NAK. -/
theorem PortAgrees.congr {s u : State} {q : Port} (h : PortAgrees s q) (b : Backed s u q)
    (state : (u.context q).state = (s.context q).state) (stage : (u.path q).stage = (s.path q).stage)
    (hold : (u.engine q).hold = (s.engine q).hold)
    (naked : (u.engine q).addressNaked = (s.engine q).addressNaked) : PortAgrees u q := by
  refine h.moved b ?_ ?_ ?_ ?_ ?_ <;> simp only [state, stage, hold, naked]
  · exact h.stage
  · exact h.clock
  · exact h.naked

/-- A port at rest, without a pin, a segment, a request or a stage (R65, R96, R99). -/
theorem PortAgrees.at_rest {u : State} {q : Port} (state : (u.context q).state.pinned = false)
    (pin : (u.context q).pin = none) (held : ∀ n, u.holds q n = false) (free : NoRequest u q)
    (stage : (u.path q).stage = .empty)
    (naked : (u.engine q).addressNaked = true → (u.context q).state.passive = true ∨
      (u.context q).state = .aborted) : PortAgrees u q where
  pin := by rw [pin, state]; rfl
  held n hn := by rw [held n] at hn; cases hn
  request := by
    have none : (u.waitList.filter fun r => r.port == q) = [] :=
      List.filter_eq_nil_iff.mpr fun r hr => by simpa using free r hr
    rw [none, if_neg fun waiting => by rw [waiting] at state; cases state]
    rfl
  stage := by rw [stage, stageAgrees, not_holding_of_unpinned state]; rfl
  clock h := by rcases h with h | h <;> (rw [h] at state; cases state)
  naked := naked
  generation g hg := by rw [pin] at hg; cases hg
  route n hn := by
    rcases hn with hn | ⟨r, hr, hq, -⟩
    · rw [held n] at hn; cases hn
    · exact absurd hq (free r hr)

/-! ### The pins of both contexts -/

/-- The generations the contexts are pinned to. -/
def State.pins (s : State) : List (BitVec 16) := (s.context .a).pin.toList ++ (s.context .b).pin.toList

theorem pins_perm (s : State) (p : Port) :
    s.pins.Perm ((s.context p).pin.toList ++ (s.context (otherPort p)).pin.toList) := by
  cases p
  · exact .refl _
  · exact List.perm_append_comm

theorem mem_pins {s : State} {p : Port} {g : BitVec 16} (h : g ∈ (s.context p).pin) : g ∈ s.pins :=
  (pins_perm s p).mem_iff.mpr (List.mem_append.mpr (.inl (Option.mem_toList.mpr h)))

theorem count_pins (s : State) (g : BitVec 16) : s.pins.count g = pinCount s g := by
  have one (x : Option (BitVec 16)) : x.toList.count g = if x = some g then 1 else 0 := by
    cases x <;> simp [List.count_singleton]
  rw [State.pins, List.count_append, one, one, pinCount]

theorem PinsLeft.perm {t : TableControl} {l l' : List (BitVec 16)} (h : PinsLeft t l) (hp : l.Perm l') :
    PinsLeft t l' := by
  obtain ⟨active, retiring, known⟩ := h
  simp only [hp.count_eq] at active retiring
  exact ⟨active, retiring, fun g hg => known g (hp.mem_iff.mpr hg)⟩

/-- A known pin finds ACTIVE on the active generation, and else the bank that retires (R46). -/
theorem PinsLeft.bankOf {t : TableControl} {l : List (BitVec 16)} (h : PinsLeft t l) {g : BitVec 16} (hg : g ∈ l) :
    t.bankOf (some g) = if g = t.activeGen then t.active else t.other := by
  unfold TableControl.bankOf
  by_cases active : g = t.activeGen
  · rw [if_pos active, if_neg]
    rintro ⟨-, -, retiring⟩
    have distinct := h.retiring
    rw [← retiring] at distinct
    exact distinct.1 active
  · obtain ⟨draining, retiring⟩ := (h.known g hg).resolve_left active
    rw [if_neg active, if_pos ⟨draining, rfl, retiring.symm⟩]

/-- Outside DRAINING every pin is on the active generation (R48). -/
theorem PinsLeft.active_of_not_draining {t : TableControl} {l : List (BitVec 16)} (h : PinsLeft t l)
    (hd : t.state ≠ .draining) {g : BitVec 16} (hg : g ∈ l) : g = t.activeGen :=
  (h.known g hg).resolve_right fun draining => hd draining.1

theorem PinsLeft.retiringGen_of_not_draining {t : TableControl} {l : List (BitVec 16)} (h : PinsLeft t l)
    (hd : t.state ≠ .draining) : t.retiringGen = none ∧ t.retiringPins = 0 := by
  have retiring := h.retiring
  cases hg : t.retiringGen with
  | none => rw [hg] at retiring; exact ⟨rfl, retiring.2⟩
  | some g => rw [hg] at retiring; exact absurd retiring.2.1 hd

/-! ### Agreement but for one port -/

/-- The records agree, but for those of port `x`, if any, which has no request. The ports of `R` stay without a
pin. -/
structure Agrees (R : Port → Prop) (x : Option Port) (s : State) : Prop where
  port : ∀ q, x ≠ some q → PortAgrees s q
  pins : PinsLeft s.table s.pins
  free : ∀ q, x = some q → NoRequest s q
  rest : ∀ q, R q → (s.context q).state.pinned = false

theorem Agreement.agrees {s : State} (h : Agreement s) {R : Port → Prop}
    (rest : ∀ q, R q → (s.context q).state.pinned = false) : Agrees R none s where
  port q _ := h.port q
  pins := (pinsLeft_of_agreement h .b).perm (.refl _)
  free := nofun
  rest := rest

section agrees

variable {R : Port → Prop} {x : Option Port} {p : Port} {s t u : State}

theorem Agrees.agreement (h : Agrees R none s) : Agreement s where
  ports := onPorts_of_forall fun q => h.port q nofun
  pins := by
    obtain ⟨active, retiring, -⟩ := h.pins
    simp only [count_pins] at active retiring
    exact ⟨active, retiring⟩

/-- A port without a request is left out. -/
theorem Agrees.leave (h : Agrees R none s) (free : NoRequest s p) : Agrees R (some p) s where
  port q _ := h.port q nofun
  pins := h.pins
  free := by rintro q ⟨⟩; exact free
  rest := h.rest

/-- The port left out agrees again. -/
theorem Agrees.rejoin (h : Agrees R (some p) s) (agrees : PortAgrees s p) : Agrees R none s where
  port q _ := by
    by_cases hq : q = p
    · rw [hq]; exact agrees
    · exact h.port q fun e => hq (Option.some.inj e).symm
  pins := h.pins
  free := nofun
  rest := h.rest

/-- The port left out has come to rest (R65, R96, R99). -/
theorem Agrees.settle (h : Agrees R (some p) s) (state : (s.context p).state.pinned = false)
    (pin : (s.context p).pin = none) (held : ∀ n, s.holds p n = false) (stage : (s.path p).stage = .empty)
    (naked : (s.engine p).addressNaked = true → (s.context p).state.passive = true ∨
      (s.context p).state = .aborted) : Agrees R none s :=
  h.rejoin (.at_rest state pin held (h.free p rfl) stage naked)

/-- What the agreement speaks of is the same, and no port holds more segments. -/
theorem Agrees.unseen (h : Agrees R x t) (engines : u.engines = t.engines) (contexts : u.contexts = t.contexts)
    (paths : u.paths = t.paths) (table : u.table = t.table) (waitList : u.waitList = t.waitList)
    (held : ∀ q n, u.holds q n = true → t.holds q n = true) : Agrees R x u := by
  have context (q : Port) : u.context q = t.context q := congrArg (·.get q) contexts
  have path (q : Port) : u.path q = t.path q := congrArg (·.get q) paths
  have engine (q : Port) : u.engine q = t.engine q := congrArg (·.get q) engines
  refine ⟨fun q hq => ?_, ?_, fun q hq => ?_, fun q hq => ?_⟩
  · have agrees := h.port q hq
    refine agrees.congr ⟨?_, ?_, ?_, fun n => asked_of_filter_eq ?_, held q, fun g hg => ?_, fun g _ => ?_⟩
      ?_ ?_ ?_ ?_ <;> simp only [context, path, engine, waitList, table]
    exact agrees.generation g hg
  · rw [table, State.pins, context, context]
    exact h.pins
  · rw [NoRequest, waitList]
    exact h.free q hq
  · rw [context]
    exact h.rest q hq

/-- What the agreement speaks of is the same, and so are the segments. -/
theorem Agrees.same (h : Agrees R x t) (engines : u.engines = t.engines) (contexts : u.contexts = t.contexts)
    (paths : u.paths = t.paths) (table : u.table = t.table) (waitList : u.waitList = t.waitList)
    (segments : u.segments = t.segments) : Agrees R x u :=
  h.unseen engines contexts paths table waitList fun q n hn => by
    rwa [State.holds, State.segment, segments] at hn

end agrees

end Sys2Proof.Machine
end

section
/-! PROOFS. What keeps the records in agreement: one part of the state replaced, the pins, and the wait list. -/

namespace Sys2Proof.Machine

-- One thread at a time elaborates this part: the compile stays within the check's memory.
set_option Elab.async false

section updates

variable {R : Port → Prop} {x : Option Port} {p : Port} {s t u : State}

/-! ### One port's records -/

theorem PortAgrees.backed (h : PortAgrees s p) (pin : (u.context p).pin = (s.context p).pin)
    (route : (u.context p).route = (s.context p).route) (table : u.table = s.table)
    (requests : (u.waitList.filter fun r => r.port == p) = s.waitList.filter fun r => r.port == p)
    (held : ∀ n, u.holds p n = true → s.holds p n = true) : Backed s u p where
  pin := pin
  route := route
  count := congrArg _ requests
  asked _ := asked_of_filter_eq requests
  held := held
  known g hg := by rw [table]; exact h.generation g hg
  bank g _ := by rw [table]

/-- Records of one port change, and its requests; its pin stays. -/
theorem Agrees.replace (h : Agrees R x s) (p : Port) (context : ∀ q, q ≠ p → u.context q = s.context q)
    (path : ∀ q, q ≠ p → u.path q = s.path q) (engine : ∀ q, q ≠ p → u.engine q = s.engine q)
    (table : u.table = s.table)
    (requests : ∀ q, q ≠ p → (u.waitList.filter fun r => r.port == q) = s.waitList.filter fun r => r.port == q)
    (free : ∀ q, x = some q → NoRequest u q) (held : ∀ q n, q ≠ p → u.holds q n = true → s.holds q n = true)
    (pin : (u.context p).pin = (s.context p).pin) (rest : R p → (u.context p).state.pinned = false)
    (agrees : x ≠ some p → PortAgrees s p → PortAgrees u p) : Agrees R x u := by
  have pins (q : Port) : (u.context q).pin = (s.context q).pin := by
    by_cases hq : q = p
    · rw [hq]; exact pin
    · rw [context q hq]
  refine ⟨fun q hq => ?_, ?_, free, fun q hq => ?_⟩
  · by_cases hqp : q = p
    · subst hqp
      exact agrees hq (h.port q hq)
    · refine (h.port q hq).congr
        ((h.port q hq).backed (pins q) ?_ table (requests q hqp) (held q · hqp)) ?_ ?_ ?_ ?_
      · rw [context q hqp]
      · rw [context q hqp]
      · rw [path q hqp]
      · rw [engine q hqp]
      · rw [engine q hqp]
  · rw [table, State.pins, pins, pins]
    exact h.pins
  · by_cases hqp : q = p
    · subst hqp
      exact rest hq
    · rw [context q hqp]
      exact h.rest q hq

theorem get_set_of_ne {α : Type} {v : PerPort α} {p q : Port} {y : α} (h : q ≠ p) : (v.set p y).get q = v.get q :=
  (get_set ..).trans (if_neg h)

/-- An engine that holds its clock in WAITING and ADDRESSING, and is passive where its context is. -/
theorem Agrees.modEngine (h : Agrees R x s) (p : Port) (f : Engine → Engine)
    (clock : x ≠ some p → (s.context p).state = .waiting ∨ (s.context p).state = .addressing →
      (f (s.engine p)).hold = .address)
    (naked : x ≠ some p → (f (s.engine p)).addressNaked = true → (s.context p).state.passive = true ∨
      (s.context p).state = .aborted) : Agrees R x (Machine.modEngine p f s) := by
  refine h.replace p (fun _ _ => rfl) (fun _ _ => rfl) (fun q hq => get_set_of_ne hq) rfl (fun _ _ => rfl) h.free
    (fun _ _ _ hn => hn) rfl (h.rest p) fun hx agrees =>
      agrees.moved (agrees.backed rfl rfl rfl rfl fun _ hn => hn) rfl rfl agrees.stage ?_ ?_
  · rw [modEngine_engine_same]; exact clock hx
  · rw [modEngine_engine_same]; exact naked hx

/-- An engine that goes on holding its clock or not, and with the NAK it has given or not. -/
theorem Agrees.engine (h : Agrees R x s) (p : Port) (f : Engine → Engine)
    (hold : ∀ e, (f e).hold = e.hold := by exact fun _ => rfl)
    (naked : ∀ e, (f e).addressNaked = e.addressNaked := by exact fun _ => rfl) :
    Agrees R x (Machine.modEngine p f s) := by
  refine h.modEngine p f (fun hx waits => ?_) fun hx given => ?_
  · rw [hold]; exact (h.port p hx).clock waits
  · rw [naked] at given; exact (h.port p hx).naked given

/-- A path whose stage goes with the context. -/
theorem Agrees.modPath (h : Agrees R x s) (p : Port) (f : Path → Path)
    (stage : x ≠ some p → stageAgrees (s.context p).state (f (s.path p)).stage = true) :
    Agrees R x (Machine.modPath p f s) := by
  refine h.replace p (fun _ _ => rfl) (fun q hq => get_set_of_ne hq) (fun _ _ => rfl) rfl (fun _ _ => rfl) h.free
    (fun _ _ _ hn => hn) rfl (h.rest p) fun hx agrees =>
      agrees.moved (agrees.backed rfl rfl rfl rfl fun _ hn => hn) rfl rfl ?_ agrees.clock agrees.naked
  rw [modPath_path_same]
  exact stage hx

theorem Agrees.path (h : Agrees R x s) (p : Port) (f : Path → Path)
    (stage : ∀ q, (f q).stage = q.stage := by exact fun _ => rfl) : Agrees R x (Machine.modPath p f s) :=
  h.modPath p f fun hx => by rw [stage]; exact (h.port p hx).stage

/-- A context goes to a state that holds the same (R62, R65). -/
theorem Agrees.modContext (h : Agrees R x s) (p : Port) (f : Context → Context)
    (pin : (f (s.context p)).pin = (s.context p).pin) (route : (f (s.context p)).route = (s.context p).route)
    (pinned : (f (s.context p)).state.pinned = (s.context p).state.pinned)
    (holding : (f (s.context p)).state.holding = (s.context p).state.holding)
    (stage : x ≠ some p → stageAgrees (f (s.context p)).state (s.path p).stage = true)
    (clock : x ≠ some p → (f (s.context p)).state = .waiting ∨ (f (s.context p)).state = .addressing →
      (s.engine p).hold = .address)
    (naked : x ≠ some p → (s.engine p).addressNaked = true → (f (s.context p)).state.passive = true ∨
      (f (s.context p)).state = .aborted) : Agrees R x (Machine.modContext p f s) := by
  refine h.replace p (fun q hq => get_set_of_ne hq) (fun _ _ => rfl) (fun _ _ => rfl) rfl (fun _ _ => rfl) h.free
    (fun _ _ _ hn => hn) ?_
    (fun hR => ?_) fun hx agrees => agrees.moved (agrees.backed ?_ ?_ rfl rfl fun _ hn => hn) ?_ ?_ ?_ ?_ ?_ <;>
    rw [modContext_context_same]
  · exact pin
  · rw [pinned]; exact h.rest p hR
  · exact pin
  · exact route
  · exact pinned
  · exact holding
  · exact stage hx
  · exact clock hx
  · exact naked hx

/-- A context keeps its state, its pin and its route. -/
theorem Agrees.context (h : Agrees R x s) (p : Port) (f : Context → Context)
    (state : ∀ c, (f c).state = c.state := by exact fun _ => rfl)
    (pin : ∀ c, (f c).pin = c.pin := by exact fun _ => rfl)
    (route : ∀ c, (f c).route = c.route := by exact fun _ => rfl) : Agrees R x (Machine.modContext p f s) := by
  refine h.modContext p f (pin _) (route _) ?_ ?_ ?_ ?_ ?_ <;> simp only [state]
  · exact fun hx => (h.port p hx).stage
  · exact fun hx => (h.port p hx).clock
  · exact fun hx => (h.port p hx).naked

/-- The context of the port left out changes freely, but for its pin. -/
theorem Agrees.contextOut (h : Agrees R (some p) s) (f : Context → Context)
    (pin : (f (s.context p)).pin = (s.context p).pin) (rest : R p → (f (s.context p)).state.pinned = false) :
    Agrees R (some p) (Machine.modContext p f s) := by
  refine h.replace p (fun q hq => get_set_of_ne hq) (fun _ _ => rfl) (fun _ _ => rfl) rfl (fun _ _ => rfl) h.free
    (fun _ _ _ hn => hn) ?_
    ?_ fun hx => absurd rfl hx <;> rw [modContext_context_same]
  · exact pin
  · exact rest

theorem Agrees.engineOut (h : Agrees R (some p) s) (f : Engine → Engine) :
    Agrees R (some p) (Machine.modEngine p f s) :=
  h.modEngine p f (fun hx => absurd rfl hx) fun hx => absurd rfl hx

theorem Agrees.pathOut (h : Agrees R (some p) s) (f : Path → Path) : Agrees R (some p) (Machine.modPath p f s) :=
  h.modPath p f fun hx => absurd rfl hx

/-! ### Records, events and segments -/

theorem Agrees.record (h : Agrees R x s) (p : Port) (f : MgmtRecord → MgmtRecord) : Agrees R x (modRecord p f s) :=
  h.same rfl rfl rfl rfl rfl rfl

theorem Agrees.raise (h : Agrees R x s) (e : Event) : Agrees R x (Machine.raise e s) :=
  h.same (raise_engines ..) (raise_contexts ..) (raise_paths ..) (raise_table ..) (raise_waitList ..)
    (raise_segments ..)

theorem Agrees.respond (h : Agrees R x s) (p : Port) (v : Status) (d : List Byte) :
    Agrees R x (Machine.respond p v d s) := h.record ..
theorem Agrees.respondPending (h : Agrees R x s) (p : Port) (c : PendingCommand) :
    Agrees R x (Machine.respondPending p c s) := h.record ..
theorem Agrees.respondFinal (h : Agrees R x s) (p : Port) (v : Status) (d : List Byte) :
    Agrees R x (Machine.respondFinal p v d s) := h.record ..
theorem Agrees.dropReception (h : Agrees R x s) (p : Port) : Agrees R x (Machine.dropReception p s) := h.record ..

/-- Segments change, each held by the port that held it or by none. -/
theorem Agrees.modSegments (h : Agrees R x s) (f : SegId → Segment → Segment)
    (held : ∀ n q, (f n (s.segment n)).heldBy = some q → (s.segment n).heldBy = some q) :
    Agrees R x (Machine.modSegments f s) := by
  refine h.unseen rfl rfl rfl rfl rfl fun q n hn => ?_
  rw [holds_iff, modSegments_segment] at hn
  exact (holds_iff ..).mpr (held n q hn)

theorem Agrees.modSegment (h : Agrees R x s) (n : SegId) (f : Segment → Segment)
    (held : ∀ q, (f (s.segment n)).heldBy = some q → (s.segment n).heldBy = some q) :
    Agrees R x (Machine.modSegment n f s) := by
  refine h.unseen rfl rfl rfl rfl rfl fun q k hk => ?_
  rw [holds_iff, modSegment_segment] at hk
  rw [holds_iff]
  split at hk
  next hkn => rw [hkn]; exact held q hk
  · exact hk

/-- A segment changes, held as before. -/
theorem Agrees.segment (h : Agrees R x s) (n : SegId) (f : Segment → Segment)
    (held : ∀ y, (f y).heldBy = y.heldBy := by exact fun _ => rfl) : Agrees R x (Machine.modSegment n f s) :=
  h.modSegment n f fun q hq => by rwa [held] at hq

/-- A segment changes, held by no port afterwards. -/
theorem Agrees.segmentFree (h : Agrees R x s) (n : SegId) (f : Segment → Segment)
    (held : ∀ y, (f y).heldBy = none := by exact fun _ => rfl) : Agrees R x (Machine.modSegment n f s) :=
  h.modSegment n f fun q hq => by rw [held] at hq; cases hq

theorem Agrees.releaseSegments (h : Agrees R x s) (p : Port) (byAbort : Bool) (keep : SegId → Bool) :
    Agrees R x (Machine.releaseSegments p byAbort keep s) := by
  refine h.modSegments _ fun n q hq => ?_
  split at hq
  · rw [released_heldBy] at hq; cases hq
  · exact hq

/-! ### Pins and the table (R46, R47) -/

/-- The table changes; every pin is known to it and finds its bank. -/
theorem Agrees.modTable (h : Agrees R x s) (k : TableControl) (pins : PinsLeft k s.pins)
    (bank : ∀ g ∈ s.pins, k.bankOf (some g) = s.table.bankOf (some g)) : Agrees R x { s with table := k } where
  port q hq := by
    have agrees := h.port q hq
    exact agrees.moved (u := { s with table := k })
      { pin := rfl, route := rfl, count := rfl, asked := fun _ hn => hn, held := fun _ hn => hn
        known := fun g hg => pins.known g (mem_pins hg), bank := fun g hg => bank g (mem_pins hg) }
      rfl rfl agrees.stage agrees.clock agrees.naked
  pins := pins
  free := h.free
  rest := h.rest

/-- Only what no pin depends on differs in the table. -/
theorem Agrees.tableUnseen (h : Agrees R x s) (f : TableControl → TableControl)
    (gen : ∀ k, (f k).activeGen = k.activeGen := by exact fun _ => rfl)
    (retiring : ∀ k, (f k).retiringGen = k.retiringGen := by exact fun _ => rfl)
    (state : ∀ k, (f k).state = k.state := by exact fun _ => rfl)
    (active : ∀ k, (f k).activePins = k.activePins := by exact fun _ => rfl)
    (count : ∀ k, (f k).retiringPins = k.retiringPins := by exact fun _ => rfl)
    (bank : ∀ k pin, (f k).bankOf pin = k.bankOf pin := by exact fun _ _ => rfl) :
    Agrees R x (Machine.modTable f s) := by
  refine h.modTable (f s.table) ?_ fun g _ => bank _ _
  obtain ⟨ha, hr, hk⟩ := h.pins
  refine ⟨?_, ?_, fun g hg => ?_⟩ <;> simp only [gen, retiring, state, active, count, pinAgrees]
  · exact ha
  · exact hr
  · exact hk g hg

/-- The port left out changes its pin, and the table with it. -/
theorem Agrees.repin (h : Agrees R (some p) s) (pin : Option (BitVec 16)) (k : TableControl)
    (pins : PinsLeft k (pin.toList ++ (s.context (otherPort p)).pin.toList))
    (bank : ∀ g ∈ (s.context (otherPort p)).pin, k.bankOf (some g) = s.table.bankOf (some g)) :
    Agrees R (some p) (withContext p { s.context p with pin := pin } { s with table := k }) := by
  generalize hu : withContext p { s.context p with pin := pin } { s with table := k } = u
  have own : u.context p = { s.context p with pin := pin } := by rw [← hu]; exact withContext_context_same ..
  have other (q : Port) (hq : q ≠ p) : u.context q = s.context q := by rw [← hu]; exact get_set_of_ne hq
  have table : u.table = k := by rw [← hu]; rfl
  have perm := pins_perm u p
  rw [own, other _ (otherPort_ne p)] at perm
  refine ⟨fun q hq => ?_, table ▸ pins.perm perm.symm, fun q hq => ?_, fun q hq => ?_⟩
  · have hqp : q ≠ p := fun e => hq (congrArg some e.symm)
    have agrees := h.port q hq
    obtain rfl := eq_otherPort hqp
    refine agrees.congr (u := u) ⟨?_, ?_, ?_, fun n hn => ?_, fun n hn => ?_, fun g hg => ?_, fun g hg => ?_⟩
      ?_ ?_ ?_ ?_
    · rw [other _ hqp]
    · rw [other _ hqp]
    · rw [← hu]; rfl
    · rw [← hu] at hn; exact hn
    · rw [← hu] at hn; exact hn
    · rw [table]; exact pins.known g (List.mem_append.mpr (.inr (Option.mem_toList.mpr hg)))
    · rw [table]; exact bank g hg
    · rw [other _ hqp]
    · rw [← hu]; rfl
    · rw [← hu]; rfl
    · rw [← hu]; rfl
  · rw [← hu]; exact h.free q hq
  · by_cases hqp : q = p
    · subst hqp
      rw [own]
      exact h.rest q hq
    · rw [other q hqp]
      exact h.rest q hq

/-- The port left out releases its pin (R47, R55, R65). -/
theorem Agrees.releasePin (h : Agrees R (some p) s) : Agrees R (some p) (Machine.releasePin p s) := by
  have before := h.pins.perm (pins_perm s p)
  have after := pinsLeft_unpin before
  have same := sameBanks_unpin s.table (s.context p).pin
  rw [releasePin_eq, unpinnedTable_eq]
  refine h.repin none _ after fun g hg => ?_
  rw [after.bankOf (Option.mem_toList.mpr hg), same.activeGen, same.active, same.other,
    before.bankOf (List.mem_append.mpr (.inr (Option.mem_toList.mpr hg)))]

theorem releasePin_pin (p : Port) (s : State) : ((Machine.releasePin p s).context p).pin = none := by
  rw [releasePin_eq]
  exact congrArg Context.pin (get_set_same ..)

/-- The port left out pins the active generation (R46). -/
theorem Agrees.requestPin (h : Agrees R (some p) s) : Agrees R (some p) (Machine.requestPin p s) := by
  unfold Machine.requestPin
  split
  · exact h
  next unpinned =>
    have pins := h.pins.perm (pins_perm s p)
    rw [Bool.not_eq_true, Option.isSome_eq_false_iff, Option.isNone_iff_eq_none] at unpinned
    rw [unpinned] at pins
    obtain ⟨active, retiring, known⟩ := pins
    rw [Option.toList_none, List.nil_append] at active retiring known
    refine h.repin (some s.table.activeGen) { s.table with activePins := s.table.activePins + 1 } ⟨?_, ?_, ?_⟩
      fun g _ => rfl
    · show s.table.activePins + 1 = _
      rw [Option.toList_some, List.singleton_append, List.count_cons_self, active]
    · cases hg : s.table.retiringGen with
      | none => simpa only [hg] using retiring
      | some g =>
        simp only [hg] at retiring ⊢
        obtain ⟨distinct, draining, count, pos⟩ := retiring
        refine ⟨distinct, draining, ?_, pos⟩
        rw [Option.toList_some, List.singleton_append, List.count_cons_of_ne distinct.symm]
        exact count
    · rintro g hg
      rcases List.mem_append.mp hg with hg | hg
      · exact .inl (by simpa using hg)
      · exact known g hg

/-! ### The wait list (R86, R90, R92) -/

theorem filter_port_filter_ne {p q : Port} (hq : q ≠ p) (l : List Request) :
    ((l.filter fun r => r.port != p).filter fun r => r.port == q) = l.filter fun r => r.port == q := by
  rw [List.filter_filter]
  refine List.filter_congr fun r _ => ?_
  by_cases hr : r.port = q
  · subst hr; simp [hq]
  · simp [hr]

/-- Requests change; those of every port that agrees are the same. -/
theorem Agrees.requests (h : Agrees R x s) (l : List Request) (y : Option Port)
    (hy : ∀ q, y ≠ some q → x ≠ some q ∧
      (l.filter fun r => r.port == q) = s.waitList.filter fun r => r.port == q)
    (free : ∀ q, y = some q → ∀ r ∈ l, r.port ≠ q) : Agrees R y { s with waitList := l } where
  port q hq := by
    obtain ⟨hx, same⟩ := hy q hq
    have agrees := h.port q hx
    exact agrees.moved (agrees.backed (u := { s with waitList := l }) rfl rfl rfl same fun _ hn => hn) rfl rfl
      agrees.stage agrees.clock agrees.naked
  pins := h.pins
  free q hq := free q hq
  rest := h.rest

/-- A port's request leaves the list, and the port is left out. -/
theorem Agrees.drop (h : Agrees R none s) (p : Port) :
    Agrees R (some p) { s with waitList := s.waitList.filter fun r => r.port != p } := by
  refine h.requests _ (some p)
    (fun q hq => ⟨nofun, filter_port_filter_ne (fun e => hq (congrArg some e.symm)) _⟩) ?_
  rintro q ⟨⟩
  exact noRequest_filter p s

/-- A context can begin an address phase with the segments of a set: it has a pin, its engine holds the clock for the
address, and the set belongs to its route (R62, R72). -/
structure Claiming (s : State) (p : Port) (set : SegSet) : Prop where
  pin : (s.context p).pin.isSome = true
  hold : (s.engine p).hold = .address
  naked : (s.engine p).addressNaked = false
  route : ∀ n, segMem set n = true →
    ∃ i ∈ (s.context p).route, routeHas (s.table.bankOf (s.context p).pin).entries[i] n

/-- A waiting context can begin its address phase. -/
theorem PortAgrees.claiming (h : PortAgrees s p) (waiting : (s.context p).state = .waiting) {r : Request}
    (hr : r ∈ s.waitList) (hp : r.port = p) : Claiming s p r.segments where
  pin := by rw [h.pin, waiting]; rfl
  hold := h.clock (.inl waiting)
  naked := Bool.eq_false_iff.mpr fun given => by
    have := h.naked given
    rw [waiting] at this
    rcases this with passive | aborted
    · cases passive
    · cases aborted
  route n hn := h.route n (.inr ⟨r, hr, hp, hn⟩)

/-- A context in ADDRESSING with the segments of its claim (R72, R90, R100). -/
theorem PortAgrees.addressing {set : SegSet} (c : Claiming u p set) (state : (u.context p).state = .addressing)
    (free : NoRequest u p) (stage : (u.path p).stage = .address)
    (held : ∀ n, u.holds p n = true → segMem set n = true)
    (known : ∀ g ∈ (u.context p).pin, pinAgrees u.table g) : PortAgrees u p where
  pin := by rw [c.pin, state]; rfl
  held n _ := by rw [state]; rfl
  request := by
    rw [state, if_neg (by decide), List.length_eq_zero_iff, List.filter_eq_nil_iff]
    exact fun r hr => by simpa using free r hr
  stage := by rw [state, stage]; rfl
  clock _ := c.hold
  naked given := by rw [c.naked] at given; cases given
  generation := known
  route n hn := by
    rcases hn with hn | ⟨r, hr, hq, -⟩
    · exact c.route n (held n hn)
    · exact absurd hq (free r hr)

/-- A grant makes the port hold the members of the set, and takes no segment from it. -/
theorem granted_holds (k q : Port) (set : SegSet) (s : State) (n : SegId) : (granted k set s).holds q n =
    if segMem set n then some k == some q else s.holds q n := by
  show (((granted k set s).segment n).heldBy == some q) = _
  rw [show (granted k set s).segment n = _ from Vector.getElem_ofFn ..]
  split <;> rfl

/-- A port without segments that can begin its phase is granted the set; its requests leave the list (R90, R100). -/
theorem Agrees.granted {set : SegSet} (h : Agrees R x s) (c : Claiming s p set) (unheld : ∀ n, s.holds p n = false)
    (l : List Request) (rest : ¬ R p) (own : ∀ r ∈ l, r.port ≠ p)
    (requests : ∀ q, q ≠ p → (l.filter fun r => r.port == q) = s.waitList.filter fun r => r.port == q)
    (free : ∀ q, x = some q → ∀ r ∈ l, r.port ≠ q) :
    let u := { Machine.granted p set s with waitList := l }
    Agrees R x u ∧ PortAgrees u p := by
  intro u
  have context : u.context p = { s.context p with state := .addressing } := get_set_same ..
  have pin : (u.context p).pin = (s.context p).pin := by rw [context]
  have agrees : PortAgrees u p := by
    refine .addressing (set := set) ⟨?_, c.hold, c.naked, fun n hn => ?_⟩ ?_ own ?_ (fun n hn => ?_) fun g hg => ?_
    · rw [pin]; exact c.pin
    · rw [context]; exact c.route n hn
    · rw [context]
    · exact congrArg Path.stage (get_set_same ..)
    · have := hn.symm.trans (granted_holds p p set s n)
      rw [unheld] at this
      by_contra outside
      rw [if_neg outside] at this
      cases this
    · exact h.pins.known g (mem_pins (pin ▸ hg))
  refine ⟨h.replace p (fun q hq => get_set_of_ne hq) (fun q hq => get_set_of_ne hq) (fun _ _ => rfl) rfl requests free
    (fun q n hq hn => ?_) pin (fun hR => absurd hR rest) fun _ _ => agrees, agrees⟩
  have := hn.symm.trans (granted_holds p q set s n)
  split at this
  · exact absurd (Option.some.inj (beq_iff_eq.mp this.symm)) hq.symm
  · exact this.symm

/-- A waiting request is granted and leaves the list (R90). -/
theorem Agrees.grantFirst {older rest : List Request} {r : Request} (h : Agrees R x s)
    (list : s.waitList = older ++ r :: rest) :
    Agrees R x { Machine.granted r.port r.segments s with waitList := older ++ rest } := by
  have listed : r ∈ s.waitList := by rw [list]; simp
  have hx : x ≠ some r.port := fun e => h.free _ e r listed rfl
  have agrees := h.port r.port hx
  have waiting := waiting_of_request agrees fun none => none r listed rfl
  have own : ∀ o ∈ older ++ rest, o.port ≠ r.port := by
    have one := agrees.request
    rw [if_pos waiting, list, List.filter_append, List.filter_cons_of_pos (by simp), List.length_append,
      List.length_cons] at one
    have none : ((older ++ rest).filter fun o => o.port == r.port) = [] := by
      rw [← List.length_eq_zero_iff, List.filter_append, List.length_append]
      omega
    exact fun o ho => by simpa using List.filter_eq_nil_iff.mp none o ho
  have unheld (n : SegId) : s.holds r.port n = false := Bool.eq_false_iff.mpr fun held => by
    have := agrees.held n held
    rw [waiting] at this
    cases this
  refine (h.granted (agrees.claiming waiting listed rfl) unheld (older ++ rest) (fun hR => ?_) own (fun q hq => ?_)
    fun q hq o ho => ?_).1
  · have := h.rest _ hR
    rw [waiting] at this
    cases this
  · rw [list, List.filter_append, List.filter_append, List.filter_cons_of_neg (by simpa using fun e => hq e.symm)]
  · refine h.free q hq o ?_
    rw [list]
    rcases List.mem_append.mp ho with ho | ho
    · exact List.mem_append.mpr (.inl ho)
    · exact List.mem_append.mpr (.inr (List.mem_cons_of_mem _ ho))

/-- An examination keeps the agreement of the records, each grant by itself (R90). -/
theorem Agrees.examineFrom (older rest : List Request) (h : Agrees R x { s with waitList := older ++ rest }) :
    Agrees R x (Machine.examineFrom older rest s) := by
  induction rest generalizing older s with
  | nil => rwa [List.append_nil] at h
  | cons r rest ih =>
    rw [examineFrom_cons]
    split
    · exact ih older (h.grantFirst rfl)
    · refine ih (older ++ [r]) ?_
      rwa [List.append_assoc, List.singleton_append]

theorem Agrees.examine (h : Agrees R x s) : Agrees R x (Machine.examine s) := h.examineFrom [] s.waitList

/-- A withdrawal keeps the agreement of the records of the other port (R92). -/
theorem Agrees.withdraw (h : Agrees R (some p) { s with waitList := s.waitList.filter fun r => r.port != p }) :
    Agrees R (some p) (Machine.withdraw p s) := by
  by_cases hr : ∃ r ∈ s.waitList, r.port = p
  · rw [withdraw_some p s hr]
    exact h.examine
  · have none : NoRequest s p := fun r hrs hrp => hr ⟨r, hrs, hrp⟩
    rw [List.filter_eq_self.mpr fun r hrs => by simpa using none r hrs] at h
    rw [withdraw_none p s none]
    exact h

end updates

end Sys2Proof.Machine
end

section
/-! PROOFS. The operations the commands share keep the records in agreement: releases, refusals, aborts and
isolations. -/

namespace Sys2Proof.Machine

-- One thread at a time elaborates this part: the compile stays within the check's memory.
set_option Elab.async false

section shared

variable {R : Port → Prop} {x : Option Port} {p : Port} {s t u : State}

theorem Agrees.ite {c : Prop} [Decidable c] (ht : Agrees R x t) (hu : Agrees R x u) :
    Agrees R x (if c then t else u) := by
  split
  · exact ht
  · exact hu

/-! ### A port that leaves its segments (R94, R99) -/

/-- The port holds no segment and its path is EMPTY (R62, R99). -/
structure Vacant (s : State) (p : Port) : Prop where
  held : ∀ n, s.holds p n = false
  stage : (s.path p).stage = .empty

theorem PortAgrees.vacant (h : PortAgrees s p) (hs : (s.context p).state.holding = false) : Vacant s p where
  held n := Bool.eq_false_iff.mpr fun held => by
    have := h.held n held
    rw [hs] at this
    cases this
  stage := stage_empty h.stage hs

theorem vacant_releaseAll (p : Port) (byAbort : Bool) (s : State) : Vacant (releaseAll p byAbort s) p where
  held n := by
    rw [State.holds, releaseAll_segment]
    by_cases held : (s.segment n).heldBy = some p
    · rw [if_pos held, released_heldBy]; rfl
    · rw [if_neg held]; simpa using held
  stage := congrArg Path.stage (modPath_path_same ..)

/-- The withdrawal of the port's own request gives it nothing (R92). -/
theorem Vacant.withdraw (h : Vacant s p) : Vacant (Machine.withdraw p s) p := by
  by_cases hr : ∃ r ∈ s.waitList, r.port = p
  · rw [withdraw_some p s hr]
    obtain ⟨path, free⟩ := examineFrom_leaves p []
      (s.waitList.filter fun r => r.port != p) { s with waitList := s.waitList.filter fun r => r.port != p }
      (noRequest_filter p s)
    exact ⟨fun n => free n (h.held n), (congrArg Path.stage path).trans h.stage⟩
  · rw [withdraw_none p s fun r hrs hrp => hr ⟨r, hrs, hrp⟩]
    exact h

theorem Agrees.releaseAll (h : Agrees R (some p) s) (byAbort : Bool) :
    Agrees R (some p) (Machine.releaseAll p byAbort s) := (h.releaseSegments ..).pathOut _

/-- A port without segments and without a pin has come to rest. -/
theorem Agrees.settleVacant (h : Agrees R (some p) s) (v : Vacant s p) (pin : (s.context p).pin = none)
    (state : (s.context p).state.pinned = false)
    (naked : (s.engine p).addressNaked = true → (s.context p).state.passive = true ∨
      (s.context p).state = .aborted) : Agrees R none s := h.settle state pin v.held v.stage naked

/-! ### Refusals (R37, R69) -/

/-- A denial is counted at no cost to the pins (R37). -/
theorem Agrees.countDenial (h : Agrees R x s) (i : RouteId) : Agrees R x (Machine.countDenial i s) :=
  h.tableUnseen _

theorem Agrees.countHit (h : Agrees R x s) (i : RouteId) : Agrees R x (Machine.countHit i s) := h.tableUnseen _

/-- The port left out, without segments, changes its context and releases its pin. -/
theorem Agrees.giveUp (h : Agrees R (some p) s) (v : Vacant s p) (f : Context → Context)
    (pin : (f (s.context p)).pin = (s.context p).pin) (state : (f (s.context p)).state.pinned = false) :
    let u := Machine.releasePin p (Machine.modContext p f s)
    Agrees R (some p) u ∧ Vacant u p ∧ (u.context p).pin = none ∧
      (u.context p).state = (f (s.context p)).state := by
  refine ⟨(h.contextOut f pin fun _ => state).releasePin, ?_, releasePin_pin .., ?_⟩ <;> rw [releasePin_eq]
  · exact ⟨v.held, v.stage⟩
  · exact (congrArg Context.state (get_set_same ..)).trans (by rw [modContext_context_same])

/-- A refusal brings its port to rest, whatever request it had (R69). -/
theorem Agrees.refuse (h : Agrees R (some p) { s with waitList := s.waitList.filter fun r => r.port != p })
    (kind : EventKind) (seg : Option SegId) (log : Bool) : Agrees R none (Machine.refuse p kind seg log s) := by
  have left : Agrees R (some p) (Machine.withdraw p (Machine.releaseAll p false s)) :=
    .withdraw (h.releaseAll false)
  obtain ⟨ignoring, vacant, unpinned, state⟩ := left.giveUp (vacant_releaseAll p false s).withdraw (fun c =>
    { c with state := .ignoring, traceOwed := false, waitTimer := none, idleTimer := none }) rfl rfl
  unfold Machine.refuse
  dsimp only
  generalize Machine.releasePin p _ = w at ignoring vacant unpinned state
  have answered : Agrees R none (answerAddress p .nak w) :=
    (ignoring.engineOut _).settleVacant ⟨vacant.held, vacant.stage⟩ unpinned (by rw [modEngine_context, state]; rfl)
      fun _ => .inl (by rw [modEngine_context, state]; rfl)
  split
  · exact .ite (.countDenial (.ite (answered.raise _) answered) _) (.ite (answered.raise _) answered)
  · exact .ite (answered.raise _) answered

theorem Agrees.refuseOut (h : Agrees R (some p) s) (kind : EventKind) (seg : Option SegId) (log : Bool) :
    Agrees R none (Machine.refuse p kind seg log s) := by
  refine .refuse ?_ kind seg log
  rwa [List.filter_eq_self.mpr fun r hr => by simpa using h.free p rfl r hr]

/-- A refusal of a port without a request leaves the wait list (R69). -/
theorem refuse_waitList (p : Port) (kind : EventKind) (seg : Option SegId) (log : Bool) (s : State)
    (hw : NoRequest s p) : (Machine.refuse p kind seg log s).waitList = s.waitList := by
  rw [refuse_eq p kind seg log s hw]
  dsimp only
  generalize he : (if log = true then _ else refusedState p s) = u
  have list : u.waitList = s.waitList := by
    rw [← he]
    split
    · exact raise_waitList ..
    · rfl
  split
  · split <;> exact list
  · exact list

/-! ### Aborts (R82, R83) -/

/-- The effects of an abort bring its port to rest (R83). -/
theorem Agrees.abortedState (h : Agrees R (some p) s) : Agrees R none (Machine.abortedState p s) := by
  have aborted := (((h.contextOut (fun c => { c with state := .aborted, waitTimer := none, idleTimer := none }) rfl
    fun _ => rfl).releasePin).releaseAll true).engineOut unheldEngine
  have same : Machine.modEngine p unheldEngine (Machine.releaseAll p true (Machine.releasePin p
      (Machine.modContext p (fun c => { c with state := .aborted, waitTimer := none, idleTimer := none }) s))) =
      Machine.abortedState p s := by
    rw [releasePin_eq, releaseAll_eq]
    cases p <;> rfl
  rw [same] at aborted
  have context : (Machine.abortedState p s).context p =
      { s.context p with state := .aborted, waitTimer := none, idleTimer := none, pin := none } := get_set_same ..
  refine aborted.settle ?_ ?_ (fun n => ?_) ?_ fun _ => .inr ?_
  · rw [context]; rfl
  · rw [context]
  · rw [← same]
    exact (vacant_releaseAll p true _).held n
  · exact congrArg Path.stage (get_set_same ..)
  · rw [context]

/-- An abort brings its port to rest, where it reaches it (R82, R83). -/
theorem Agrees.abort (h : Agrees R none s) (p : Port) (reason : AbortReason) :
    Agrees R none (Machine.abort p reason s) := by
  cases hr : reason.reaches (s.context p).state with
  | false => rwa [abort_unreached p reason s hr]
  | true =>
    rw [abort_withdrawn p reason s hr]
    exact (h.drop p).withdraw.abortedState

/-! ### Isolation at the arbiter (R93) -/

/-- A context has at most one request (R86). -/
theorem pairwise_ports {l : List Request} (h : ∀ q, (l.filter fun r => r.port == q).length ≤ 1) :
    l.Pairwise fun r r' => r.port ≠ r'.port := by
  induction l with
  | nil => exact .nil
  | cons r l ih =>
    have own := h r.port
    rw [List.filter_cons_of_pos (by simp), List.length_cons] at own
    have none : (l.filter fun o => o.port == r.port) = [] := List.length_eq_zero_iff.mp (by omega)
    refine .cons (fun o ho hp => ?_) (ih fun q => (List.Sublist.length_le ?_).trans (h q))
    · simpa [hp] using List.filter_eq_nil_iff.mp none o ho
    · exact (List.sublist_cons_self r l).filter _

theorem Agrees.pairwise_waiting (h : Agrees R none s) : s.waitList.Pairwise fun r r' => r.port ≠ r'.port :=
  pairwise_ports fun q => by
    rw [(h.port q nofun).request]
    split <;> decide

/-- A member dropped from one port's request (R93). -/
theorem Agrees.narrow (h : Agrees R none s) {r : Request} (hr : r ∈ s.waitList) (left : SegSet)
    (fewer : ∀ n, segMem left n = true → segMem r.segments n = true) :
    Agrees R none { s with
      waitList := s.waitList.map fun o => if o.port = r.port then { o with segments := left } else o } where
  port q _ := by
    have agrees := h.port q nofun
    have ports : (fun o : Request => o.port == q) ∘
        (fun o => if o.port = r.port then { o with segments := left } else o) = fun o => o.port == q := by
      funext o
      dsimp only [Function.comp]
      split <;> rfl
    refine agrees.moved ⟨rfl, rfl, ?_, fun n hn => ?_, fun _ hn => hn, agrees.generation, fun _ _ => rfl⟩ rfl rfl
      agrees.stage agrees.clock agrees.naked
    · rw [List.filter_map, ports, List.length_map]
    · obtain ⟨o, ho, hq, hm⟩ := hn
      obtain ⟨o', ho', rfl⟩ := List.mem_map.mp ho
      by_cases hp : o'.port = r.port
      · rw [if_pos hp] at hq hm
        exact ⟨r, hr, hp ▸ hq, fewer n hm⟩
      · rw [if_neg hp] at hq hm
        exact ⟨o', ho', hq, hm⟩
  pins := h.pins
  free := nofun
  rest := h.rest

/-- One waiting request meets the isolation of a segment; the other requests stay (R74, R93). -/
theorem Agrees.isolateRequest (h : Agrees R none s) (n : SegId) {r : Request} (hr : r ∈ s.waitList) :
    Agrees R none (Machine.isolateRequest n r s) ∧
      ∀ o ∈ s.waitList, o.port ≠ r.port → o ∈ (Machine.isolateRequest n r s).waitList := by
  have fewer (m : SegId) : segMem (r.segments &&& ~~~(1#8 <<< n.val)) m = true → segMem r.segments m = true := by
    unfold segMem
    rw [BitVec.getLsbD_and, Bool.and_eq_true]
    exact And.left
  unfold Machine.isolateRequest
  dsimp only
  split
  · have dropped := h.drop r.port
    refine ⟨dropped.refuseOut .., fun o ho hp => ?_⟩
    rw [refuse_waitList _ _ _ _ _ (noRequest_filter r.port s)]
    exact List.mem_filter.mpr ⟨ho, by simpa using hp⟩
  · refine ⟨h.narrow hr _ fewer, fun o ho hp => ?_⟩
    exact List.mem_map.mpr ⟨o, ho, if_neg hp⟩

/-- The waiting requests that name an isolated segment, one after the other (R93). -/
theorem Agrees.isolateRequests (n : SegId) (l : List Request) (h : Agrees R none s) (hl : ∀ r ∈ l, r ∈ s.waitList)
    (distinct : l.Pairwise fun r r' => r.port ≠ r'.port) :
    Agrees R none (l.foldl (fun s r => Machine.isolateRequest n r s) s) := by
  induction l generalizing s with
  | nil => exact h
  | cons r l ih =>
    obtain ⟨apart, others⟩ := List.pairwise_cons.mp distinct
    obtain ⟨agrees, kept⟩ := h.isolateRequest n (hl r List.mem_cons_self)
    exact ih agrees (fun o ho => kept o (hl o (List.mem_cons_of_mem _ ho)) (apart o ho).symm) others

theorem Agrees.arbiterIsolation (h : Agrees R none s) (n : SegId) : Agrees R none (Machine.arbiterIsolation n s) :=
  .ite h (h.isolateRequests n _ (fun _ hr => (List.mem_filter.mp hr).1)
    (h.pairwise_waiting.sublist List.filter_sublist)).examine

/-! ### Entries of a segment into its states -/

section entries

variable (h : Agrees R none s)
include h

theorem Agrees.enterIdle (n : SegId) : Agrees R none (Machine.enterIdle n s) := (h.segmentFree ..).examine
theorem Agrees.enterIsolated (n : SegId) (q : Option Port) (d : Byte) :
    Agrees R none (Machine.enterIsolated n q d s) := ((h.segmentFree ..).raise _).arbiterIsolation n
theorem Agrees.enterRecovering (n : SegId) (q : Option Port) : Agrees R none (Machine.enterRecovering n q s) :=
  h.segmentFree ..
theorem Agrees.finishIsolation (n : SegId) (i : IsolationPending) :
    Agrees R none (Machine.finishIsolation n i s) :=
  .ite ((h.enterIsolated ..).respondFinal ..) (h.enterIsolated ..)
theorem Agrees.faultTransition (n : SegId) (q : Option Port) : Agrees R none (Machine.faultTransition n q s) :=
  .ite (h.enterRecovering ..) (h.enterIsolated ..)
theorem Agrees.closingFault (n : SegId) (c : ClosingRec) : Agrees R none (Machine.closingFault n c s) := by
  unfold Machine.closingFault
  split
  · exact h.finishIsolation ..
  · exact h.faultTransition ..
theorem Agrees.closingToUnsynced (n : SegId) (c : ClosingRec) (high : Bool) :
    Agrees R none (Machine.closingToUnsynced n c high s) := by
  unfold Machine.closingToUnsynced
  split
  · exact h.finishIsolation ..
  · exact h.segmentFree ..

end entries

end shared

end Sys2Proof.Machine
end

section
/-! PROOFS. The records agree after every happening at a forwarding path and at a segment. -/

namespace Sys2Proof.Machine

-- One thread at a time elaborates this part: the compile stays within the check's memory.
set_option Elab.async false

/-! ### Outcomes -/

/-- Whatever state the outcome answers, the records agree in it. -/
def Agreeing (o : Host.Outcome State Fault Refusal) : Prop := ∀ t, o = .next t → Agrees (fun _ => False) none t

theorem agreeing_act {f : State → State} {s : State} (h : Agrees (fun _ => False) none s)
    (hf : Agrees (fun _ => False) none (f s)) : Agreeing (act f s) := by
  rintro t ⟨⟩
  exact .ite h hf

/-- A happening at a segment acts on the port that holds it, and on nothing where none does. -/
theorem agreeing_holder {f : Port → State → State} {s : State} (h : Agrees (fun _ => False) none s) (n : SegId)
    (hf : ∀ p, (s.segment n).heldBy = some p → Agrees (fun _ => False) none (f p s)) :
    Agreeing (act (fun s => match (s.segment n).heldBy with | none => s | some p => f p s) s) := by
  refine agreeing_act h ?_
  split
  · exact h
  next p hp => exact hf p hp

/-! ### The forwarding path (chapter 6) -/

section forwarding

variable {R : Port → Prop} {x : Option Port} {p : Port} {s t : State}

/-- The port's address byte, if it has one, has been answered: its context neither waits nor begins a phase. -/
def Answered (s : State) (p : Port) : Prop := (s.context p).state ≠ .waiting ∧ (s.context p).state ≠ .addressing

theorem answered_of_forwarding (hs : (s.context p).state.forwarding = true) : Answered s p := by
  constructor <;> (intro e; rw [e] at hs; cases hs)

/-- An engine whose address byte has been answered changes, but for a NAK it has given. -/
theorem Agrees.engineAnswered (h : Agrees R x s) (ha : Answered s p) (f : Engine → Engine)
    (naked : ∀ e, (f e).addressNaked = e.addressNaked := by exact fun _ => rfl) :
    Agrees R x (Machine.modEngine p f s) :=
  h.modEngine p f (fun _ waits => (waits.elim ha.1 ha.2).elim) fun hx given => by
    rw [naked] at given
    exact (h.port p hx).naked given

theorem Agrees.giveAck (h : Agrees R x s) (ha : Answered s p) (a : Ack) : Agrees R x (Machine.giveAck p a s) :=
  h.engineAnswered ha _
theorem Agrees.supply (h : Agrees R x s) (ha : Answered s p) (b : Byte) : Agrees R x (Machine.supply p b s) :=
  h.engineAnswered ha _

theorem not_passive_of_holding {c : CtxState} (h : c.holding = true) : c.passive = false ∧ c ≠ .aborted := by
  revert h
  cases c <;> decide

theorem PortAgrees.not_naked (h : PortAgrees s p) (hs : (s.context p).state.holding = true) :
    (s.engine p).addressNaked = false := Bool.eq_false_iff.mpr fun given => by
  obtain ⟨active, unaborted⟩ := not_passive_of_holding hs
  rcases h.naked given with passive | aborted
  · rw [active] at passive; cases passive
  · exact unaborted aborted

/-- A phase under way goes on in LIMITED (R108, R112). -/
theorem Agrees.limit (h : Agrees R none s) (p : Port) (hs : (s.context p).state.forwarding = true)
    (hg : (s.path p).stage = .between ∨ (s.path p).stage = .readEnded) :
    Agrees R none (Machine.modContext p (fun c => { c with state := .limited }) s) := by
  have holding : (s.context p).state.holding = true := by rw [CtxState.holding, hs, Bool.or_true]
  refine h.modContext p _ rfl rfl ?_ ?_ (fun _ => ?_) (fun _ waits => ?_) fun _ given => ?_
  · rw [pinned_of_holding holding]; rfl
  · rw [holding]; rfl
  · rcases hg with hg | hg <;> rw [hg] <;> rfl
  · rcases waits with e | e <;> cases e
  · rw [(h.port p nofun).not_naked holding] at given; cases given

theorem releaseSegments_holds (p q : Port) (byAbort : Bool) (keep : SegId → Bool) (s : State) (n : SegId)
    (h : (Machine.releaseSegments p byAbort keep s).holds q n = true) : s.holds q n = true := by
  rw [holds_iff, releaseSegments_segment] at h
  split at h
  · rw [released_heldBy] at h; cases h
  · exact (holds_iff ..).mpr h

theorem Agrees.addressAccepted (h : Agrees R none s) (hg : (s.path p).stage = .address) :
    Agrees R none (Machine.addressAccepted p s) := by
  have agrees := h.port p nofun
  obtain ⟨state, free⟩ := addressing_of_stage agrees hg
  have resting : ¬ R p := fun hR => by
    have := h.rest p hR
    rw [state] at this
    cases this
  have out := ((((h.leave free).releaseSegments p false (s.path p).acked).pathOut (fun q =>
    { q with stage := .between, outcomes := noOutcomes
             targetSending := if (s.context p).direction = some .read then some true else none })).contextOut (fun c =>
    { c with state := if (s.context p).direction = some .read then .reading else .writing
             waitTimer := none, idleTimer := some (s.record p).idleLimit }) rfl fun hR => absurd hR resting).engineOut
    fun e => { e with hold := .none, ack := some .ack, addressNaked := false }
  refine out.rejoin (agrees.moved (agrees.backed ?_ ?_ rfl rfl fun n => releaseSegments_holds p p false _ s n)
    ?_ ?_ ?_ ?_ ?_) <;> simp only [modEngine_context, modContext_context_same, modPath_context, modEngine_path,
      modContext_path, modPath_path_same, modEngine_engine_same, state]
  · rfl
  · rfl
  · split <;> rfl
  · split <;> rfl
  · split <;> rfl
  · split <;> simp
  · exact nofun

theorem Agrees.addressRefused (h : Agrees R none s) (hg : (s.path p).stage = .address) :
    Agrees R none (Machine.addressRefused p s) := by
  obtain ⟨-, free⟩ := addressing_of_stage (h.port p nofun) hg
  obtain ⟨ignoring, vacant, unpinned, state⟩ := ((h.leave free).releaseAll false).giveUp
    (vacant_releaseAll p false s) (fun c => { c with state := .ignoring, waitTimer := none }) rfl rfl
  unfold Machine.addressRefused Machine.answerAddress
  refine (ignoring.engineOut _).settleVacant ⟨vacant.held, vacant.stage⟩ unpinned ?_ fun _ => .inl ?_ <;>
    (rw [modEngine_context, state]; rfl)

theorem Agrees.formAddressOutcome (h : Agrees R none s) (hg : (s.path p).stage = .address) :
    Agrees R none (Machine.formAddressOutcome p s) :=
  .ite (h.abort p .downFault) (.ite h (.ite (h.addressAccepted hg) (h.addressRefused hg)))

theorem modHeld_heldBy (f : HeldRec → HeldRec) (y : Segment) (hf : ∀ k, (f k).port = k.port) :
    (y.modHeld f).heldBy = y.heldBy := by
  cases hy : y.state with
  | held k => simp only [Segment.modHeld, Segment.heldBy, hy, hf]
  | _ => simp only [Segment.modHeld, Segment.heldBy, hy]

theorem reported_heldBy (r : AddrReport) (y : Segment) : (y.reported r).heldBy = y.heldBy := by
  cases r with
  | ack | nak => exact modHeld_heldBy _ y fun _ => rfl
  | exhausted | fault => rfl

theorem Agrees.addressReport (h : Agrees R none s) (p : Port) (n : SegId) (r : AddrReport) :
    Agrees R none (Machine.addressReport p n r s) := by
  unfold Machine.addressReport Machine.raiseExhausted
  dsimp only
  generalize hu : (if r = .exhausted then _ else s) = u
  have raised : Agrees R none u := hu ▸ .ite (h.raise _) h
  have path : u.path p = s.path p := by
    rw [← hu]
    split
    · exact raise_path ..
    · rfl
  split
  next hg =>
    refine .ite ?_ h
    refine ((raised.segment n (Segment.reported r) (reported_heldBy r)).path p _).formAddressOutcome ?_
    rw [modPath_path_same, modSegment_path, path]
    exact hg.1
  · exact raised

theorem agreeing_addressOutcome (h : Agrees (fun _ => False) none s) (p : Port) (n : SegId) (r : AddrReport) :
    Agreeing (execAddressOutcome p n r s) := agreeing_act h (.ite (h.addressReport p n r) h)

theorem Agrees.limitWrite (h : Agrees R none s) (hs : (s.context p).state = .writing)
    (hg : (s.path p).stage = .between) : Agrees R none (Machine.limitWrite p s) := by
  have forwarding : (s.context p).state.forwarding = true := by rw [hs]; rfl
  exact ((h.giveAck (answered_of_forwarding forwarding) .nak).limit p forwarding (.inl hg)).raise _

theorem Agrees.forwardWrite (h : Agrees R none s) (b : Byte) (hs : (s.context p).state = .writing) :
    Agrees R none (Machine.forwardWrite p b s) := by
  have staged := h.modPath p (fun q =>
    { q with stage := .writeByte, byte := some b, targetSending := none
             outcomes := Vector.ofFn fun n => if s.holds p n then some .pending else none }) fun _ => by rw [hs]; rfl
  refine (staged.context p fun c => { c with phaseCount := c.phaseCount.map satInc }).engineAnswered
    (answered_of_forwarding ?_) fun e => { e with hold := .write }
  rw [modContext_context_same, modPath_context, hs]
  rfl

theorem Agrees.writeForwarding (h : Agrees R none s) (b : Byte) (hs : (s.context p).state = .writing)
    (hg : (s.path p).stage = .between) : Agrees R none (Machine.writeForwarding p b s) :=
  .ite (h.limitWrite hs hg) (h.forwardWrite b hs)

theorem writing_of_stage (h : PortAgrees s p) (hg : (s.path p).stage = .writeByte) :
    (s.context p).state = .writing := by simpa [stageAgrees, hg] using h.stage

theorem presented_of_stage (h : PortAgrees s p) (hg : (s.path p).stage = .readPresented) :
    (s.context p).state = .reading := by simpa [stageAgrees, hg] using h.stage

theorem Agrees.formWriteAcknowledge (h : Agrees R none s) (hs : (s.context p).state = .writing) :
    Agrees R none (Machine.formWriteAcknowledge p s) := by
  unfold Machine.formWriteAcknowledge
  dsimp only
  refine .ite h ?_
  generalize hu : (if (s.path p).combinesToAck = true then _ else s) = u
  have released : Agrees R none u := hu ▸ .ite (h.releaseSegments ..) h
  have writing : (u.context p).state = .writing := by rw [← hu]; split <;> exact hs
  refine (released.modPath p _ fun _ => ?_).giveAck (answered_of_forwarding ?_) _
  · rw [writing]; rfl
  · rw [modPath_context, writing]; rfl

theorem agreeing_writeAcknowledge (h : Agrees (fun _ => False) none s) (n : SegId) (a : Ack) :
    Agreeing (execWriteAcknowledge n a s) := by
  refine agreeing_holder h n fun p _ => ?_
  split
  next hg =>
    exact ((h.segment n Segment.noBits).path p _).formWriteAcknowledge (writing_of_stage (s := s) (h.port p nofun) hg.1)
  · exact h

theorem Agrees.beginRead (h : Agrees R none s) (hs : (s.context p).state = .reading) :
    Agrees R none (Machine.beginRead p s) :=
  (h.engineAnswered (answered_of_forwarding (by rw [hs]; rfl)) _).modPath p _ fun _ => by
    rw [modEngine_context, hs]; rfl

theorem Agrees.readForwarding (h : Agrees R none s) (hs : (s.context p).state = .reading) :
    Agrees R none (Machine.readForwarding p s) :=
  .ite (h.beginRead hs)
    (.ite ((h.engineAnswered (answered_of_forwarding (by rw [hs]; rfl)) _).path p _) h)

theorem Agrees.endRead (h : Agrees R none s) (hs : (s.context p).state = .reading) :
    Agrees R none (Machine.endRead p s) := by
  refine (h.modPath p _ fun _ => by rw [hs]; rfl).modSegments _ fun n q hq => ?_
  split at hq <;> exact hq

theorem endRead_stage (p : Port) (s : State) : ((Machine.endRead p s).path p).stage = .readEnded :=
  congrArg Path.stage (modPath_path_same p (fun q =>
    { q with stage := .readEnded, byte := none, targetSending := none, mirroring := false, wanted := false }) s)

theorem Agrees.presentRead (h : Agrees R none s) (b : Byte) (hs : (s.context p).state = .reading) :
    Agrees R none (Machine.presentRead p b s) := by
  have presented : Agrees R none (countByte p (Machine.modPath p (fun q =>
      { q with stage := .readPresented, byte := some b, targetSending := some false }) s)) :=
    (h.modPath p _ fun _ => by rw [hs]; rfl).context p fun c => { c with phaseCount := c.phaseCount.map satInc }
  have reading : ((countByte p (Machine.modPath p (fun q =>
      { q with stage := .readPresented, byte := some b, targetSending := some false }) s)).context p).state =
      .reading := by
    rw [countByte, modContext_context_same, modPath_context]
    exact hs
  unfold Machine.presentRead
  generalize countByte p _ = v at presented reading
  have supplied := presented.supply (answered_of_forwarding (by rw [reading]; rfl)) b
  refine .ite (((supplied.endRead reading).limit p ?_ (.inr (endRead_stage ..))).raise _) supplied
  show (v.context p).state.forwarding = true
  rw [reading]
  rfl

theorem agreeing_readByteReceived (h : Agrees (fun _ => False) none s) (n : SegId) (b : Byte) :
    Agreeing (execReadByteReceived n b s) := by
  refine agreeing_holder h n fun p _ => ?_
  split
  next hg => exact (h.segment n _).presentRead b (reading_of_stage (h.port p nofun) hg).1
  · exact h

theorem Agrees.mirrorAcknowledge (h : Agrees R none s) (p : Port) (a : Ack) :
    Agrees R none (Machine.mirrorAcknowledge p a s) := by
  unfold Machine.mirrorAcknowledge
  split
  next hg =>
    cases a with
    | ack => exact h.path p _
    | nak => exact h.endRead (presented_of_stage (h.port p nofun) hg)
  · exact h

theorem agreeing_acknowledgeSlotDone (h : Agrees (fun _ => False) none s) (n : SegId) :
    Agreeing (execAcknowledgeSlotDone n s) := by
  refine agreeing_holder h n fun p _ => ?_
  dsimp only
  split
  next hg =>
    have reading := presented_of_stage (h.port p nofun) hg.1
    have between := (h.segment n Segment.noBits).modPath p (fun q =>
      { q with stage := .between, byte := none, mirroring := false, wanted := false, targetSending := some true })
      fun _ => by rw [modSegment_context, reading]; rfl
    exact .ite (between.beginRead reading) between
  · exact h

theorem agreeing_stretchBudget (h : Agrees (fun _ => False) none s) (n : SegId) : Agreeing (execStretchBudget n s) :=
  agreeing_holder h n fun p _ => .ite (((h.path p _).raise _).abort p .budget) h

end forwarding

/-! ### The segment controllers (chapter 7) -/

section segments

variable {R : Port → Prop} {s : State}

theorem heldBy_of_held {y : Segment} {k : HeldRec} (h : y.state = .held k) : y.heldBy = some k.port := by
  rw [Segment.heldBy, h]

section controllers

variable (h : Agrees (fun _ => False) none s)
include h

theorem agreeing_quietIntervalObserved (n : SegId) : Agreeing (execQuietIntervalObserved n s) :=
  agreeing_act h (.ite ((h.segment n _).enterIdle n) h)

theorem agreeing_deferredQuietObserved (n : SegId) : Agreeing (execDeferredQuietObserved n s) := by
  refine agreeing_act h ?_
  dsimp only
  split
  next k hk =>
    refine .ite (h.modSegment n _ fun q hq => ?_) h
    split at hq
    · exact hq
    · rw [heldBy_of_held hk]; exact hq
  · exact h

end controllers

/-- A loss in the address byte of a held segment (R101, R130). -/
theorem Agrees.loseAddress {k : HeldRec} (h : Agrees R none s) (n : SegId) (hk : (s.segment n).heldBy = some k.port) :
    Agrees R none (Machine.loseAddress n k s) := by
  unfold Machine.loseAddress
  dsimp only
  have lost := (h.segment n fun y => { y with arbLosses := satInc y.arbLosses }).modSegment n (fun y =>
    { y with state := .held { k with tries := k.tries + 1, deferred := true, winnerStop := false, completion := .none }
             quiet := none }) fun q hq => by
      rw [modSegment_segment_same]
      exact hk.trans hq
  exact .ite (lost.addressReport ..) lost

theorem Agrees.loseData (h : Agrees R none s) (n : SegId) (k : HeldRec) : Agrees R none (Machine.loseData n k s) :=
  ((((h.raise _).segment n _).segment n _).segmentFree n _).abort k.port .downFault

theorem Agrees.heldBusError (h : Agrees R none s) (n : SegId) (k : HeldRec) (stop : Bool) :
    Agrees R none (Machine.heldBusError n k stop s) :=
  (((h.raise _).segment n _).segmentFree n _).abort k.port .downFault

theorem Agrees.heldForeignStart {k : HeldRec} (h : Agrees R none s) (n : SegId)
    (hk : (s.segment n).heldBy = some k.port) : Agrees R none (Machine.heldForeignStart n k s) := by
  have chosen : Agrees R none { s with freeChoices := s.freeChoices + 1 } :=
    h.same rfl rfl rfl rfl rfl rfl
  exact .ite (.ite (chosen.loseAddress n hk) (chosen.heldBusError n k false)) (h.heldBusError n k false)

theorem Agrees.closingBusError (h : Agrees R none s) (n : SegId) (c : ClosingRec) (stop : Bool) :
    Agrees R none (Machine.closingBusError n c stop s) := (h.raise _).closingToUnsynced n c stop

theorem Agrees.recoveryToForeign (h : Agrees R none s) (n : SegId) (r : RecoveringRec) :
    Agrees R none (Machine.recoveryToForeign n r s) := by
  unfold Machine.recoveryToForeign
  dsimp only
  split
  · exact (h.segmentFree n _).respondFinal ..
  · exact h.segmentFree n _

/-- A fault of a held segment: its counters, its way out, and the abort of its holder (R128, R133). -/
theorem Agrees.heldFault (h : Agrees R none s) (n : SegId) (p : Port) :
    Agrees R none (Machine.abort p .downFault
      (Machine.faultTransition n (some p) (countDeparture n (countFault n s)))) :=
  (((h.segment n _).segment n _).faultTransition n (some p)).abort p .downFault

theorem Agrees.recoverySucceeds (h : Agrees R none s) (n : SegId) (r : RecoveringRec) (pulses : Nat) :
    Agrees R none (Machine.recoverySucceeds n r pulses s) := by
  unfold Machine.recoverySucceeds
  dsimp only
  split
  · exact ((h.segmentFree n _).raise _).respondFinal ..
  · exact (h.segmentFree n _).raise _

theorem Agrees.recoveryFails (h : Agrees R none s) (n : SegId) (r : RecoveringRec) :
    Agrees R none (Machine.recoveryFails n r s) := by
  unfold Machine.recoveryFails
  dsimp only
  refine .ite (h.segmentFree n _) ?_
  split
  · exact ((h.segment n _).enterIsolated ..).respondFinal ..
  · exact (h.segment n _).enterIsolated ..

theorem Agrees.endAttempt (h : Agrees R none s) (n : SegId) (result : AttemptResult) :
    Agrees R none (Machine.endAttempt n result s) := by
  unfold Machine.endAttempt
  split
  next r _ =>
    refine .ite h ?_
    cases result with
    | success pulses => exact h.recoverySucceeds n r pulses
    | failure => exact h.recoveryFails n r
  · exact h

section controllers

variable (h : Agrees (fun _ => False) none s)
include h

theorem agreeing_arbitrationLoss (n : SegId) (point : LossPoint) : Agreeing (execArbitrationLoss n point s) := by
  refine agreeing_act h ?_
  dsimp only
  split
  next k hk =>
    refine .ite h ?_
    cases point with
    | address => exact .ite (h.loseAddress n (heldBy_of_held hk)) h
    | data => exact .ite (h.loseData n k) h
  · exact .ite ((h.segmentFree n _).segment n _) h
  · exact h

theorem agreeing_segmentStartSeen (n : SegId) : Agreeing (execSegmentStartSeen n s) := by
  have seen : Agrees (fun _ => False) none (conditionSeen n s) := h.segment n _
  refine agreeing_act h ?_
  split
  · exact seen.segmentFree n _
  · exact seen.segmentFree n _
  · exact seen
  next k hk =>
    have held : ((conditionSeen n s).segment n).heldBy = some k.port := by
      rw [conditionSeen, modSegment_segment_same]
      exact heldBy_of_held hk
    refine .ite (seen.modSegment n _ fun q hq => ?_) (seen.heldForeignStart n held)
    split at hq
    · exact hq
    · exact held.trans hq
  next c _ => exact .ite seen (seen.closingBusError n c false)
  next r _ => exact seen.recoveryToForeign n r
  · exact h.segment n _

theorem agreeing_segmentStopSeen (n : SegId) : Agreeing (execSegmentStopSeen n s) := by
  have seen : Agrees (fun _ => False) none (conditionSeen n s) := h.segment n _
  refine agreeing_act h ?_
  split
  · exact seen.segmentFree n _
  · exact seen.segmentFree n _
  · exact seen
  next k hk =>
    have held : ((conditionSeen n s).segment n).heldBy = some k.port := by
      rw [conditionSeen, modSegment_segment_same]
      exact heldBy_of_held hk
    refine .ite (seen.modSegment n _ fun q hq => ?_) (seen.heldBusError n k true)
    split at hq
    · exact hq
    · exact held.trans hq
  next c _ => exact .ite (seen.closingToUnsynced n c true) (seen.closingBusError n c true)
  · exact seen
  · exact h.segment n _

theorem agreeing_lineLowWithoutStart (n : SegId) (line : Line) : Agreeing (execLineLowWithoutStart n line s) :=
  agreeing_act h (.ite ((h.segmentFree n _).segment n _) h)

theorem agreeing_stretchFault (n : SegId) : Agreeing (execStretchFault n s) := by
  refine agreeing_act h ?_
  dsimp only
  split
  next k _ => exact .ite h ((((h.segment n _).raise _).raise _).heldFault n k.port)
  next c _ => exact .ite h (((((h.segment n _).raise _).raise _).segment n _).closingFault n c)
  · exact h

theorem agreeing_stuckLineFault (n : SegId) (line : Line) : Agreeing (execStuckLineFault n line s) := by
  have measured : Agrees (fun _ => False) none (stuckMeasured n line s) := by
    unfold stuckMeasured measure
    exact h.segment n _
  refine agreeing_act h ?_
  dsimp only
  split
  · exact ((measured.raise _).segment n _).faultTransition n none
  · exact ((measured.raise _).segment n _).faultTransition n none
  next k _ => exact .ite ((measured.raise _).heldFault n k.port) h
  next c _ => exact .ite (((measured.raise _).segment n _).closingFault n c) h
  · exact h

theorem agreeing_closingStopDriven (n : SegId) : Agreeing (execClosingStopDriven n s) := by
  refine agreeing_act h ?_
  dsimp only
  split
  next c _ =>
    refine .ite h ?_
    split
    · exact (h.segment n _).finishIsolation ..
    · exact (h.segment n _).enterIdle n
  · exact h

theorem agreeing_recoveryAttemptEnd (n : SegId) (result : AttemptResult) :
    Agreeing (execRecoveryAttemptEnd n result s) := by
  cases result with
  | failure => exact agreeing_act h (h.endAttempt n .failure)
  | success pulses =>
    unfold execRecoveryAttemptEnd
    dsimp only
    split
    · exact agreeing_act h (h.endAttempt n (.success pulses))
    · rintro t ⟨⟩

theorem agreeing_recoveryWaitEnd (n : SegId) : Agreeing (execRecoveryWaitEnd n s) := by
  refine agreeing_act h ?_
  split
  · exact h.segmentFree n _
  · exact h

end controllers

/-! ### The management commands of a segment (R141 to R143, R166) -/

variable (h : Agrees R none s)
include h

theorem Agrees.opSegmentStatus (p : Port) (n : Byte) : Agrees R none (Machine.opSegmentStatus p n s) := by
  unfold Machine.opSegmentStatus
  split <;> exact h.respond ..

theorem Agrees.opSegmentConfigure (p : Port) (n v q st r auto : Byte) :
    Agrees R none (Machine.opSegmentConfigure p n v q st r auto s) := by
  unfold Machine.opSegmentConfigure
  split
  · exact .ite ((h.segment _ _).respond ..) (h.respond ..)
  · exact h.respond ..

theorem Agrees.isolateHeld (p holder : Port) (n : SegId) : Agrees R none (Machine.isolateHeld p holder n s) := by
  have aborted := h.abort holder .isolate
  unfold Machine.isolateHeld
  dsimp only
  split
  · exact (aborted.segmentFree n _).respondPending ..
  · exact (aborted.enterIsolated ..).respond ..
  · exact aborted

theorem Agrees.opSegmentIsolate (p : Port) (n : Byte) : Agrees R none (Machine.opSegmentIsolate p n s) := by
  unfold Machine.opSegmentIsolate
  split
  · exact h.respond ..
  split
  · exact (h.enterIsolated ..).respond ..
  · exact (h.enterIsolated ..).respond ..
  · exact (h.enterIsolated ..).respond ..
  · refine ((?_ : Agrees R none _).enterIsolated ..).respond ..
    split
    · exact h.respondFinal ..
    · exact h
  · exact h.isolateHeld ..
  · split
    · exact h.respond ..
    · exact (h.segmentFree _ _).respondPending ..
  · exact h.respond ..

theorem Agrees.opSegmentRestore (p : Port) (n : Byte) : Agrees R none (Machine.opSegmentRestore p n s) := by
  unfold Machine.opSegmentRestore
  split
  · exact h.respond ..
  · exact .ite ((((h.segmentFree _ _).segment _ _).raise _).respond ..) (h.respond ..)

theorem Agrees.opSegmentRecover (p : Port) (n : Byte) : Agrees R none (Machine.opSegmentRecover p n s) := by
  unfold Machine.opSegmentRecover
  split
  · exact h.respond ..
  split
  iterate 3 exact (h.enterRecovering ..).respondPending ..
  iterate 4 exact h.respond ..

end segments

end Sys2Proof.Machine
end

section
/-! PROOFS. The records agree after every command of the table controller and of the management dispatcher. -/

namespace Sys2Proof.Machine

-- One thread at a time elaborates this part: the compile stays within the check's memory.
set_option Elab.async false

/-! ### The table controller (chapter 3) -/

theorem bankOf_of_not_draining {t : TableControl} (h : t.state ≠ .draining) (pin : Option (BitVec 16)) :
    t.bankOf pin = t.active := if_neg fun draining => h draining.1

/-- A bank replaced leaves the pins and their counts. -/
theorem setOther_pins (t : TableControl) (b : Bank) : (t.setOther b).retiringGen = t.retiringGen ∧
    (t.setOther b).activePins = t.activePins ∧ (t.setOther b).retiringPins = t.retiringPins := by
  unfold TableControl.setOther
  cases t.activeBank <;> exact ⟨rfl, rfl, rfl⟩

section table

variable {R : Port → Prop} {p : Port} {s : State}

/-- Outside DRAINING, before and after, the pins stand on the active bank, which stays (R46, R48). -/
theorem Agrees.table (h : Agrees R none s) (hs : s.table.state ≠ .draining) (k : TableControl)
    (hk : k.state ≠ .draining) (active : k.active = s.table.active) (gen : k.activeGen = s.table.activeGen)
    (retiringGen : k.retiringGen = s.table.retiringGen) (activePins : k.activePins = s.table.activePins)
    (retiringPins : k.retiringPins = s.table.retiringPins) : Agrees R none { s with table := k } := by
  obtain ⟨noGen, noPins⟩ := h.pins.retiringGen_of_not_draining hs
  refine h.modTable k ⟨?_, ?_, fun g hg => .inl ?_⟩ fun g _ => ?_
  · rw [activePins, gen]; exact h.pins.active
  · rw [retiringGen, noGen, retiringPins]; exact ⟨hk, noPins⟩
  · rw [gen]; exact h.pins.active_of_not_draining hs hg
  · rw [bankOf_of_not_draining hk, bankOf_of_not_draining hs, active]

theorem Agrees.loadStaging (h : Agrees R none s) (p : Port) (f : Bank → Bank) :
    Agrees R none (Machine.loadStaging p f s) := by
  unfold Machine.loadStaging
  split
  next opened =>
    have closed : s.table.state ≠ .draining := by rw [opened]; decide
    obtain ⟨retiringGen, activePins, retiringPins⟩ := setOther_pins s.table (f s.table.other)
    refine Agrees.respond (h.table closed
      { s.table.setOther (f s.table.other) with revision := satInc s.table.revision } ?_ (active_setOther ..)
      (activeGen_setOther ..) retiringGen activePins retiringPins) ..
    show (s.table.setOther _).state ≠ _
    rwa [state_setOther]
  · exact h.respond ..

theorem Agrees.opTableDiscard (h : Agrees R none s) (p : Port) : Agrees R none (Machine.opTableDiscard p s) := by
  unfold Machine.opTableDiscard
  split
  next opened =>
    exact (h.table (by rw [opened]; decide) { s.table with state := .copying, copyBack := some (.discard p true) }
      nofun rfl rfl rfl rfl rfl).respondPending ..
  · exact h.respond ..

theorem Agrees.endCopyBack (h : Agrees R none s) (copying : s.table.state = .copying) :
    Agrees R none (Machine.endCopyBack s) := by
  obtain ⟨retiringGen, activePins, retiringPins⟩ := setOther_pins s.table s.table.active
  have copied := h.table (by rw [copying]; decide)
    { s.table.setOther s.table.active with state := .opened, revision := 0, copyBack := none } nofun
    (active_setOther ..) (activeGen_setOther ..) retiringGen activePins retiringPins
  unfold Machine.endCopyBack
  dsimp only
  split
  · exact copied.raise _
  · exact copied.respondFinal ..
  · exact copied

theorem nextGeneration_ne_self (g : BitVec 16) : g ≠ nextGeneration g := by
  unfold nextGeneration
  split
  next last => rw [last]; decide
  · bv_omega

/-- The pins of the active generation are those of the retiring one after a take without force (R48). -/
theorem pinsLeft_take {t : TableControl} {l : List (BitVec 16)} (h : PinsLeft t l) (opened : t.state = .opened)
    (p : Port) : PinsLeft (t.take p false) l := by
  have closed : t.state ≠ .draining := by rw [opened]; decide
  have old : ∀ g ∈ l, g = t.activeGen := fun g hg => h.active_of_not_draining closed hg
  have active := h.active
  refine ⟨?_, ?_, fun g hg => .inr ?_⟩
  · show 0 = l.count (nextGeneration t.activeGen)
    rw [eq_comm, List.count_eq_zero]
    exact fun hg => nextGeneration_ne_self t.activeGen (old _ hg).symm
  · by_cases none : t.activePins = 0
    · have gen : (t.take p false).retiringGen = Option.none := if_pos none
      rw [gen]
      refine ⟨?_, none⟩
      rw [show (t.take p false).state = .copying from if_pos none]
      decide
    · have gen : (t.take p false).retiringGen = some t.activeGen := if_neg none
      rw [gen]
      exact ⟨nextGeneration_ne_self _, if_neg none, active, Nat.pos_of_ne_zero none⟩
  · have some : t.activePins ≠ 0 := by
      rw [active]
      exact Nat.ne_of_gt (List.count_pos_iff.mpr (old g hg ▸ hg))
    rw [old g hg]
    exact ⟨if_neg some, if_neg some⟩

/-- A take without force exchanges the banks, and the pins move with theirs (R48, R53). -/
theorem Agrees.taken (h : Agrees R none s) (opened : s.table.state = .opened) (p : Port) :
    Agrees R none (Machine.taken p false s) := by
  have closed : s.table.state ≠ .draining := by rw [opened]; decide
  have pins := pinsLeft_take h.pins opened p
  refine Agrees.same (t := { s with table := s.table.take p false }) (h.modTable _ pins fun g hg => ?_) rfl rfl rfl rfl
    rfl rfl
  have old := h.pins.active_of_not_draining closed hg
  rw [pins.bankOf hg, if_neg, other_take, bankOf_of_not_draining closed]
  rw [old]
  exact nextGeneration_ne_self _

/-- A forced take leaves every port at rest: a pinned one is aborted, another has held nothing (R54). -/
theorem Agrees.forcedTake (h : Agrees R none s) (opened : s.table.state = .opened) (p : Port) :
    Agrees R none (forcedAborts s.table.activeGen (Machine.forcedTake p s)) := by
  have ha := h.agreement
  obtain ⟨k, u, aborts, between⟩ := forcedAborts_eq (forceable ha opened p)
  rw [aborts]
  have held := between_held ha between
  have resting (q : Port) : PortAgrees (bothDismissed k u) q ∧ ((bothDismissed k u).context q).pin = none ∧
      ((bothDismissed k u).context q).state.pinned = false := by
    by_cases pinned : (u.context q).pin.isSome = true
    · obtain ⟨aborted, unpinned, unheld, free, stage, -⟩ := bothDismissed_pinned (k := k) pinned held
      have state : ((bothDismissed k u).context q).state.pinned = false := by rw [aborted]; rfl
      exact ⟨.at_rest state unpinned unheld free stage fun _ => .inr aborted, unpinned, state⟩
    · have agrees := h.port q nofun
      have unpinned : (s.context q).pin = none := by
        rw [between.pin, forcedTake_context] at pinned
        simpa using pinned
      obtain ⟨context, path⟩ := between.unpinned q (by rw [forcedTake_context, unpinned]; rfl)
      rw [forcedTake_context] at context
      rw [forcedTake_path] at path
      have same : (bothDismissed k u).context q = s.context q := by
        rw [bothDismissed_context, if_neg pinned, context]
      have state : (s.context q).state.pinned = false := by rw [← agrees.pin, unpinned]; rfl
      refine ⟨.at_rest ?_ ?_ (fun n => ?_) (List.forall_mem_nil _) ?_ ?_, ?_, ?_⟩
      · rw [same]; exact state
      · rw [same]; exact unpinned
      · rw [State.holds, bothDismissed_segment _ _ _ fun j => held j n, cleared_heldBy]; rfl
      · rw [bothDismissed_path, if_neg pinned, path]
        exact (agrees.vacant (not_holding_of_unpinned state)).stage
      · have engine : u.engine q = s.engine q := by
          rw [State.engine, between.engines, Machine.forcedTake, raise_engines]; rfl
        rw [bothDismissed_engine, if_neg pinned, engine, same]
        exact agrees.naked
      · rw [same]; exact unpinned
      · rw [same]; exact state
  have pins : (bothDismissed k u).pins = [] := by
    rw [State.pins, (resting .a).2.1, (resting .b).2.1]; rfl
  refine ⟨fun q _ => (resting q).1, ?_, nofun, fun q _ => (resting q).2.2⟩
  rw [pins, forced_table ha opened between]
  exact ⟨rfl, ⟨nofun, rfl⟩, nofun⟩

theorem Agrees.takeCommit (h : Agrees R none s) (opened : s.table.state = .opened) (p : Port) (force : Bool) :
    Agrees R none (Machine.takeCommit p force s) := by
  rw [takeCommit_eq]
  refine Agrees.respond ?_ ..
  cases force with
  | false => exact h.taken opened p
  | true =>
    have count : forcedCount s.table.activeGen (Machine.taken p true s) = pinCount s s.table.activeGen :=
      forcedCount_eq h.agreement opened
    rw [count]
    exact h.forcedTake opened p

theorem Agrees.opTableCommit (h : Agrees R none s) (p : Port) (expected : BitVec 16) (force : Byte) :
    Agrees R none (Machine.opTableCommit p expected force s) := by
  unfold Machine.opTableCommit
  split
  · exact h.respond ..
  split
  · exact h.respond ..
  next opened =>
    refine .ite (h.respond ..) ?_
    split
    · exact h.respond ..
    · exact h.takeCommit (not_not.mp opened) p _

end table

/-! ### The management dispatcher (chapter 8) -/

theorem resetSegment_heldBy (y : Segment) : (resetSegment y).heldBy = y.heldBy := by
  cases hy : y.state <;> simp only [resetSegment, Segment.heldBy, Segment.toUnsynced, hy]

section management

variable {R : Port → Prop} {p : Port} {s : State} (h : Agrees R none s)
include h

theorem Agrees.opRouteLoad (p : Port) (i c m k g d f : Byte) :
    Agrees R none (Machine.opRouteLoad p i c m k g d f s) := by
  unfold Machine.opRouteLoad
  split
  · exact .ite (h.loadStaging ..) (h.respond ..)
  · exact h.respond ..

theorem Agrees.opPolicyLoad (p : Port) (i f w r c a d b : Byte) :
    Agrees R none (Machine.opPolicyLoad p i f w r c a d b s) := by
  unfold Machine.opPolicyLoad
  split
  · exact .ite (h.loadStaging ..) (h.respond ..)
  · exact h.respond ..

theorem Agrees.opRouteRead (p : Port) (role i : Byte) : Agrees R none (Machine.opRouteRead p role i s) := by
  unfold Machine.opRouteRead
  split
  · split <;> exact h.respond ..
  · exact h.respond ..

theorem Agrees.opPolicyRead (p : Port) (role i : Byte) : Agrees R none (Machine.opPolicyRead p role i s) := by
  unfold Machine.opPolicyRead
  split
  · split <;> exact h.respond ..
  · exact h.respond ..

theorem Agrees.opCounterRead (p : Port) (i : Byte) : Agrees R none (Machine.opCounterRead p i s) := by
  unfold Machine.opCounterRead
  split <;> exact h.respond ..

theorem Agrees.opPortStatus (p : Port) (q : Byte) : Agrees R none (Machine.opPortStatus p q s) := by
  unfold Machine.opPortStatus
  split <;> exact h.respond ..

theorem Agrees.opPortConfigure (p : Port) (q a w i : Byte) (m : BitVec 32) :
    Agrees R none (Machine.opPortConfigure p q a w i m s) := by
  unfold Machine.opPortConfigure
  split
  · exact h.respond ..
  next k _ =>
    have configured := h.record k fun r =>
      { r with storedAddr := a.setWidth 7, waitLimit := w, idleLimit := i, alertMask := m &&& Config.alertMaskBits }
    refine .ite (Agrees.respond ?_ ..) (h.respond ..)
    exact configured.same rfl rfl rfl rfl rfl rfl

theorem Agrees.opLogPeek (p : Port) : Agrees R none (Machine.opLogPeek p s) := by
  unfold Machine.opLogPeek
  split <;> exact h.respond ..

theorem Agrees.opLogPop (p : Port) : Agrees R none (Machine.opLogPop p s) :=
  .ite ((h.opLogPeek p).same rfl rfl rfl rfl rfl rfl)
    ((h.opLogPeek p).same rfl rfl rfl rfl rfl rfl)

/-- CONTEXT RESET leaves both contexts in IDLE, and nothing held or pinned (R85, R97, R119, R170). -/
theorem Agrees.contextsCleared (p : Port) : Agrees R none (Machine.contextsCleared p s) where
  port q _ := by
    have agrees := h.port q nofun
    have context := contextsCleared_context p s q
    refine .at_rest ?_ ?_ (fun n => ?_) ?_ ?_ fun _ => .inl ?_
    · rw [context]; rfl
    · rw [context]; rfl
    · rw [State.holds, contextsCleared_segment, cleared_heldBy]; rfl
    · cases p <;> exact nofun
    · rw [contextsCleared_path]
      unfold Path.afterReset
      split
      next kept => exact (agrees.vacant (not_pinned_of_resetKeeps kept).2).stage
      · rfl
    · rw [context]; rfl
  pins := by
    have pins : (Machine.contextsCleared p s).pins = [] := by
      rw [State.pins, contextsCleared_context, contextsCleared_context]; rfl
    rw [pins, contextsCleared_table]
    refine pinsLeft_unpin (pins := []) ?_
    rw [List.append_nil]
    exact pinsLeft_unpin (h.pins.perm ((pins_perm s p).trans List.perm_append_comm))
  free := nofun
  rest q _ := by rw [contextsCleared_context]; rfl

theorem Agrees.resetCredits : Agrees R none (Machine.resetCredits s) := by
  unfold Machine.resetCredits
  generalize (Vector.ofFn _ : Vector Credit 16) = credits
  exact h.same rfl rfl rfl rfl rfl rfl

theorem Agrees.opContextReset (p : Port) : Agrees R none (Machine.opContextReset p s) := by
  unfold Machine.opContextReset
  dsimp only
  rw [resetContexts_eq p s h.agreement]
  have cleared := (h.contextsCleared p).modSegments (fun _ y => resetSegment y)
    fun n q => (congrArg (· = some q) (resetSegment_heldBy _)).mp
  generalize Machine.modSegments (fun _ y => resetSegment y) (Machine.contextsCleared p s) = u at cleared
  have emptied : Agrees R none (emptyLog u) := cleared.same rfl rfl rfl rfl rfl rfl
  exact ((emptied.resetCredits.tableUnseen _).respondFinal ..).respond ..

theorem Agrees.runCommand (p : Port) (o : MgmtOp) (args : List Byte) :
    Agrees R none (Machine.runCommand p o args s) := by
  apply runCommand_induction (P := Agrees R none)
  case unchanged => exact h
  case identify | tableStatus => exact h.respond ..
  case rightsGrant | rightsRevoke => exact (h.record ..).respond ..
  case portStatus => exact h.opPortStatus p
  case portConfigure => exact h.opPortConfigure p
  case routeLoad => exact h.opRouteLoad p
  case routeRead => exact h.opRouteRead p
  case policyLoad => exact h.opPolicyLoad p
  case policyRead => exact h.opPolicyRead p
  case tableCommit => exact h.opTableCommit p
  case tableDiscard => exact h.opTableDiscard p
  case counterRead => exact h.opCounterRead p
  case segmentStatus => exact h.opSegmentStatus p
  case segmentConfigure => exact h.opSegmentConfigure p
  case segmentIsolate => exact h.opSegmentIsolate p
  case segmentRestore => exact h.opSegmentRestore p
  case segmentRecover => exact h.opSegmentRecover p
  case logPeek => exact h.opLogPeek p
  case logPop => exact h.opLogPop p
  case contextReset => exact h.opContextReset p

theorem Agrees.executeCommand (p : Port) (o : MgmtOp) (args : List Byte) :
    Agrees R none (Machine.executeCommand p o args s) := .ite (h.respond ..) (h.runCommand ..)

theorem Agrees.examineBytes (p : Port) (bytes : List Byte) : Agrees R none (Machine.examineBytes p bytes s) := by
  refine .ite ((h.raise _).respond ..) ?_
  split
  · exact h.respond ..
  · exact .ite (h.respond ..) (h.executeCommand ..)

theorem Agrees.examineReception (p : Port) (r : Reception) : Agrees R none (Machine.examineReception p r s) :=
  .ite h (.ite (h.respond ..) (h.examineBytes ..))

theorem Agrees.handOver (p : Port) : Agrees R none (Machine.handOver p s) := by
  unfold Machine.handOver
  split
  · exact h
  · exact (h.examineReception ..).dropReception p

end management

section dispatch

variable {s : State} (h : Agrees (fun _ => False) none s)
include h

theorem agreeing_managementWrite (p : Port) (bytes : List Byte) : Agreeing (execManagementWrite p bytes s) :=
  agreeing_act h ((h.examineReception ..).dropReception p)

theorem agreeing_command (p : Port) (o : MgmtOp) (args : List Byte) : Agreeing (command p o args s) :=
  agreeing_act h (.ite h ((h.executeCommand ..).dropReception p))

theorem agreeing_copyBackEnd : Agreeing (execCopyBackEnd s) := by
  refine agreeing_act h ?_
  split
  next copying => exact h.endCopyBack copying
  · exact h

/-! ### Resets and timers -/

theorem agreeing_resetEnd : Agreeing (execResetEnd s) := by
  rintro t ⟨⟩
  refine .ite ?_ h
  have begun : Agrees (fun _ => False) none { s with resetActive := false, log := { s.log with timestamp := 0 } } :=
    h.same rfl rfl rfl rfl rfl rfl
  exact begun.modSegments _ fun _ _ => nofun

theorem agreeing_addressWaitLimit (p : Port) : Agreeing (execAddressWaitLimit p s) :=
  agreeing_act h (.ite ((h.drop p).refuse ..) h)

theorem agreeing_idleLimit (p : Port) : Agreeing (execIdleLimit p s) :=
  agreeing_act h (.ite ((h.raise _).abort p .abandoned) h)

theorem agreeing_refillTimer (i : ProfileId) : Agreeing (execRefillTimer i s) :=
  agreeing_act h (.ite (h.same rfl rfl rfl rfl rfl rfl) h)

theorem agreeing_timestampTick : Agreeing (execTimestampTick s) :=
  agreeing_act h (h.same rfl rfl rfl rfl rfl rfl)

end dispatch

/-- The device in reset holds what it holds after reset (R17). -/
theorem agrees_inReset (high : Bool) (s : State) : Agrees (fun _ => False) none (inReset high s) :=
  ((agreement_atReset high).agrees nofun).same rfl rfl rfl rfl rfl rfl

end Sys2Proof.Machine
end

section
/-! PROOFS. The records agree after every condition and every byte of an upstream port. -/

namespace Sys2Proof.Machine

-- One thread at a time elaborates this part: the compile stays within the check's memory.
set_option Elab.async false

section upstream

variable {R : Port → Prop} {x : Option Port} {p : Port} {s t u : State}

/-- The agreement says nothing more of a port in a state without a pin. -/
theorem Agrees.resting (h : Agrees (fun _ => False) none s) (hs : (s.context p).state.pinned = false) :
    Agrees (· = p) none s := h.agreement.agrees fun q hq => by rw [hq]; exact hs

theorem Agrees.anywhere (h : Agrees R none s) : Agrees (fun _ => False) none s := h.agreement.agrees nofun

/-! ### A port without a segment, a stage and a pin -/

/-- The port left out has no segment, no stage and no pin (R65, R96, R99). -/
structure AtRest (p : Port) (s : State) : Prop where
  agrees : Agrees (fun _ => False) (some p) s
  vacant : Vacant s p
  pin : (s.context p).pin = none

theorem Agrees.atRest (h : Agrees (fun _ => False) none s) (hs : (s.context p).state.pinned = false) : AtRest p s where
  agrees := h.leave (noRequest_of_agrees (h.port p nofun) fun waits => by rw [waits] at hs; cases hs)
  vacant := (h.port p nofun).vacant (not_holding_of_unpinned hs)
  pin := by rw [← Option.not_isSome_iff_eq_none, (h.port p nofun).pin, hs]; decide

/-- The end of forwarding leaves its port without a segment and a pin (R67, R68, R80). -/
theorem Agrees.leaveForwarding (h : Agrees (fun _ => False) (some p) s) : AtRest p (Machine.leaveForwarding p s) where
  agrees := (h.releaseAll false).releasePin
  vacant := by
    have vacant := vacant_releaseAll p false s
    rw [Machine.leaveForwarding, releasePin_eq]
    exact ⟨vacant.held, vacant.stage⟩
  pin := releasePin_pin ..

theorem AtRest.context (h : AtRest p s) (f : Context → Context) (pin : (f (s.context p)).pin = none) :
    AtRest p (Machine.modContext p f s) where
  agrees := h.agrees.contextOut f (pin.trans h.pin.symm) nofun
  vacant := ⟨h.vacant.held, h.vacant.stage⟩
  pin := by rw [modContext_context_same]; exact pin

theorem AtRest.record (h : AtRest p s) (f : MgmtRecord → MgmtRecord) : AtRest p (modRecord p f s) where
  agrees := h.agrees.record p f
  vacant := ⟨h.vacant.held, h.vacant.stage⟩
  pin := h.pin

theorem AtRest.engine (h : AtRest p s) (f : Engine → Engine) : AtRest p (Machine.modEngine p f s) where
  agrees := h.agrees.engineOut f
  vacant := ⟨h.vacant.held, h.vacant.stage⟩
  pin := h.pin

theorem AtRest.path (h : AtRest p s) (f : Path → Path) (stage : (f (s.path p)).stage = (s.path p).stage) :
    AtRest p (Machine.modPath p f s) where
  agrees := h.agrees.pathOut f
  vacant := ⟨h.vacant.held, by rw [modPath_path_same, stage]; exact h.vacant.stage⟩
  pin := h.pin

theorem AtRest.raise (h : AtRest p s) (e : Event) : AtRest p (Machine.raise e s) where
  agrees := h.agrees.raise e
  vacant := ⟨fun n => by rw [State.holds, State.segment, raise_segments]; exact h.vacant.held n,
    by rw [raise_path]; exact h.vacant.stage⟩
  pin := by rw [raise_context]; exact h.pin

theorem AtRest.raiseTransaction (h : AtRest p s) : AtRest p (Machine.raiseTransaction p s) := by
  unfold Machine.raiseTransaction
  split
  · exact (h.raise _).context _ (h.raise _).pin
  · exact h

theorem AtRest.settle (h : AtRest p s) (state : (s.context p).state.pinned = false)
    (naked : (s.engine p).addressNaked = true → (s.context p).state.passive = true ∨
      (s.context p).state = .aborted) : Agrees (fun _ => False) none s :=
  h.agrees.settleVacant h.vacant h.pin state naked

/-! ### Phase boundaries (R63, R64, R80) -/

theorem answered_of_hold (h : PortAgrees s p) (hold : (s.engine p).hold = .none) : Answered s p := by
  constructor <;> intro state
  · have := h.clock (.inl state)
    rw [hold] at this
    cases this
  · have := h.clock (.inr state)
    rw [hold] at this
    cases this

/-- A report acts on its port only while the engine lets the clock go: its context neither waits nor begins a
phase. -/
theorem agreeing_reported {f : State → State} (h : Agrees (fun _ => False) none s)
    (hf : Answered s p → Agrees (fun _ => False) none (f s)) : Agreeing (act (reported p f) s) := by
  refine agreeing_act h ?_
  unfold reported
  split
  next hr => exact hf (answered_of_hold (h.port p nofun) hr.2)
  · exact h

theorem Answered.noRequest (ha : Answered s p) (h : PortAgrees s p) : NoRequest s p := noRequest_of_agrees h ha.1

theorem Agrees.raiseTransaction (h : Agrees R x s) (p : Port) : Agrees R x (Machine.raiseTransaction p s) :=
  .ite ((h.raise _).context p fun c => { c with traceOwed := false }) h

theorem Agrees.endPresented (h : Agrees R none s) (p : Port) : Agrees R none (Machine.endPresented p s) := by
  unfold Machine.endPresented
  split
  next hg => exact h.endRead (presented_of_stage (h.port p nofun) hg)
  · exact h

theorem Agrees.closePhase (h : Agrees R none s) (p : Port) : Agrees R none (Machine.closePhase p s) := by
  have restarted := h.context p fun c => { c with idleTimer := some (s.record p).idleLimit }
  unfold Machine.closePhase
  split
  · exact h.handOver p
  · exact h.raiseTransaction p
  · exact h.raiseTransaction p
  iterate 3 exact restarted.raiseTransaction p
  all_goals exact h

/-- At a condition the engine goes on holding its clock or not, and a NAK it has given is over (R2, R10). -/
theorem Agrees.condition (h : Agrees R none s) (p : Port) (f : Engine → Engine)
    (hold : ∀ e, (f e).hold = e.hold := by exact fun _ => rfl)
    (naked : ∀ e, (f e).addressNaked = false := by exact fun _ => rfl) : Agrees R none (Machine.modEngine p f s) := by
  refine h.modEngine p f (fun _ waits => ?_) fun _ given => ?_
  · rw [hold]; exact (h.port p nofun).clock waits
  · rw [naked] at given; cases given

theorem agreeing_upstreamStart (h : Agrees (fun _ => False) none s) (p : Port) :
    Agreeing (act (upstreamStart p) s) := by
  refine agreeing_act h (.ite ((h.condition p _).record ..) (.ite ?_ h))
  exact (((h.endPresented p).closePhase p).condition p _).path p Path.phaseEnd

/-- A stop ends what the context does with its pin and its segments (R80). -/
theorem Agrees.closeTransaction (h : Agrees (fun _ => False) none s) (ha : Answered s p) :
    AtRest p (Machine.closeTransaction p s) := by
  have forwarded := ((h.leave (ha.noRequest (h.port p nofun))).leaveForwarding).raiseTransaction
  unfold Machine.closeTransaction
  split
  next hs =>
    have handed := (h.resting (p := p) (by rw [hs]; rfl)).handOver p
    exact handed.anywhere.atRest (handed.rest p rfl)
  iterate 3 exact forwarded
  iterate 2 next hs => exact (h.atRest (by rw [hs]; rfl)).raiseTransaction
  iterate 2 next hs => exact h.atRest (by rw [hs]; rfl)
  next hs => exact absurd hs ha.1
  next hs => exact absurd hs ha.2

theorem agreeing_stop (h : Agrees (fun _ => False) none s) (p : Port) : Agreeing (execStop p s) := by
  refine agreeing_reported h fun ha => ?_
  have closed := (h.endPresented p).closeTransaction (p := p)
    ⟨by rw [endPresented_context]; exact ha.1, by rw [endPresented_context]; exact ha.2⟩
  dsimp only
  generalize Machine.closeTransaction p _ = u at closed
  refine ((((closed.context (fun _ => Context.idle) rfl).record _).engine _).path _ rfl).settle ?_ fun given => ?_
  · rw [modPath_context, modEngine_context, modRecord_context, modContext_context_same]
    rfl
  · rw [modPath_engine, modEngine_engine_same] at given
    cases given

/-! ### Bytes and bus errors (R77 to R79, R84, R148, R153) -/

theorem agreeing_controllerAcknowledge (h : Agrees (fun _ => False) none s) (p : Port) (a : Ack) :
    Agreeing (execControllerAcknowledge p a s) :=
  agreeing_reported h fun _ => .ite h (.ite ((h.engine p _).mirrorAcknowledge p a) (h.engine p _))

theorem agreeing_byteComplete (h : Agrees (fun _ => False) none s) (p : Port) : Agreeing (execByteComplete p s) := by
  refine agreeing_reported h fun _ => ?_
  have completed := h.engine p fun e => { e with bits := 0, ack := none }
  exact .ite (completed.context p fun c => { c with idleTimer := some (s.record p).idleLimit }) completed

theorem agreeing_busError (h : Agrees (fun _ => False) none s) (p : Port) : Agreeing (execBusError p s) := by
  refine agreeing_reported h fun _ => ?_
  have seen := h.condition p Engine.atCondition
  refine .ite ((seen.raise _).abort p .upstreamError) ?_
  split
  next hs =>
    have dropped := (seen.raise
      (phaseEvent .upstreamBusError p none 2 (modEngine p Engine.atCondition s))).dropReception p
    have state (e : Event) : ((dropReception p
        (Machine.raise e (modEngine p Engine.atCondition s))).context p).state = .mgmtWrite := by
      rw [dropReception, modRecord_context, raise_context, modEngine_context]
      exact hs.1
    refine dropped.modContext p (fun c => { c with state := .ignoring }) rfl rfl ?_ ?_ (fun _ => ?_) ?_
      fun _ _ => .inl rfl
    · rw [state]; rfl
    · rw [state]; rfl
    · rw [((dropped.port p nofun).vacant (by rw [state]; rfl)).stage]; rfl
    · rintro - (waits | waits) <;> cases waits
  · exact seen.raise _

theorem Agrees.writeManagement (h : Agrees R x s) (ha : Answered s p) (b : Byte) :
    Agrees R x (Machine.writeManagement p b s) := by
  unfold Machine.writeManagement
  split
  · exact h.giveAck ha _
  · exact (h.record p _).giveAck ha _

theorem agreeing_writeByte (h : Agrees (fun _ => False) none s) (p : Port) (b : Byte) :
    Agreeing (execWriteByte p b s) := by
  refine agreeing_reported h fun ha => .ite h ?_
  have taken := h.engine p fun e => { e with bits := 8, shifter := b }
  refine .ite (taken.giveAck ha _) ?_
  split
  · exact taken.writeManagement ha b
  next hs =>
    split
    next hg => exact taken.writeForwarding b hs hg
    · exact h
  iterate 4 exact taken.giveAck ha _
  iterate 4 exact h

theorem Agrees.readManagement (h : Agrees R x s) (ha : Answered s p) : Agrees R x (Machine.readManagement p s) := by
  unfold Machine.readManagement
  split
  · exact (h.record p _).supply ha _
  · exact h.supply ha _

theorem agreeing_readByteWanted (h : Agrees (fun _ => False) none s) (p : Port) :
    Agreeing (execReadByteWanted p s) := by
  refine agreeing_reported h fun ha => .ite h ?_
  split
  · exact h.readManagement ha
  next hs => exact h.readForwarding hs
  iterate 2 exact h.supply ha _
  iterate 6 exact h

end upstream

end Sys2Proof.Machine
end

section
/-! PROOFS. The records agree after the address decision, and so after every step. -/

namespace Sys2Proof.Machine

-- One thread at a time elaborates this part: the compile stays within the check's memory.
set_option Elab.async false

section decision

variable {R : Port → Prop} {p : Port} {set : SegSet} {s t u : State}

/-! ### What a claim needs -/

theorem Claiming.congr (c : Claiming s p set) (pin : (u.context p).pin = (s.context p).pin)
    (route : (u.context p).route = (s.context p).route) (engine : u.engine p = s.engine p) (table : u.table = s.table) :
    Claiming u p set where
  pin := by rw [pin]; exact c.pin
  hold := by rw [engine]; exact c.hold
  naked := by rw [engine]; exact c.naked
  route := by rw [route, pin, table]; exact c.route

theorem Claiming.subset {less : SegSet} (c : Claiming s p set)
    (fewer : ∀ n, segMem less n = true → segMem set n = true) : Claiming s p less :=
  ⟨c.pin, c.hold, c.naked, fun n hn => c.route n (fewer n hn)⟩

/-- A phase claims members of its route's set only (R70). -/
theorem segMem_of_claimSet {less : SegSet} {agg : Aggregation} (h : claimSet s set agg = .ok less) (n : SegId)
    (hn : segMem less n = true) : segMem set n = true := by
  unfold claimSet at h
  split at h
  · cases h; exact hn
  · split at h
    · cases h
      rw [State.available, segMem_segSetOf] at hn
      exact (Bool.and_eq_true_iff.mp hn).1
    · cases h

/-- A context in WAITING with the one request for the segments of its claim (R72, R88). -/
theorem PortAgrees.waiting {handling : IsolationHandling} (c : Claiming u p set)
    (state : (u.context p).state = .waiting) (v : Vacant u p)
    (own : (u.waitList.filter fun r => r.port == p) = [⟨p, set, handling⟩])
    (known : ∀ g ∈ (u.context p).pin, pinAgrees u.table g) : PortAgrees u p where
  pin := by rw [c.pin, state]; rfl
  held n hn := by rw [v.held n] at hn; cases hn
  request := by rw [own, if_pos state]; rfl
  stage := by rw [state, v.stage]; rfl
  clock _ := c.hold
  naked given := by rw [c.naked] at given; cases given
  generation := known
  route n hn := by
    rcases hn with hn | ⟨r, hr, hq, hn⟩
    · rw [v.held n] at hn; cases hn
    · have mem : r ∈ u.waitList.filter fun r => r.port == p := List.mem_filter.mpr ⟨hr, beq_iff_eq.mpr hq⟩
      rw [own, List.mem_singleton] at mem
      rw [mem] at hn
      exact c.route n hn

/-- The port left out places its request at the end of the wait list (R88). -/
theorem Agrees.enqueue (h : Agrees (fun _ => False) (some p) s) (c : Claiming s p set) (v : Vacant s p)
    (handling : IsolationHandling) :
    Agrees (fun _ => False) none (Machine.modContext p (fun c => { c with state := .waiting })
      { s with waitList := s.waitList ++ [⟨p, set, handling⟩] }) := by
  generalize hu : Machine.modContext p (fun c => { c with state := .waiting })
    { s with waitList := s.waitList ++ [⟨p, set, handling⟩] } = u
  have own : u.context p = { s.context p with state := .waiting } := by rw [← hu]; exact modContext_context_same ..
  have other (q : Port) (hq : q ≠ p) : u.context q = s.context q := by rw [← hu]; exact get_set_of_ne hq
  have pin (q : Port) : (u.context q).pin = (s.context q).pin := by
    by_cases hq : q = p
    · rw [hq, own]
    · rw [other q hq]
  have list : u.waitList = s.waitList ++ [⟨p, set, handling⟩] := by rw [← hu]; rfl
  have table : u.table = s.table := by rw [← hu]; rfl
  have engine (q : Port) : u.engine q = s.engine q := by rw [← hu]; rfl
  have path (q : Port) : u.path q = s.path q := by rw [← hu]; rfl
  have holds (q : Port) (n : SegId) : u.holds q n = s.holds q n := by rw [← hu]; rfl
  refine ⟨fun q _ => ?_, ?_, nofun, nofun⟩
  · by_cases hq : q = p
    · subst hq
      refine .waiting (c.congr (pin q) (by rw [own]) (engine q) table) (by rw [own])
        ⟨fun n => by rw [holds, v.held n], by rw [path, v.stage]⟩ (handling := handling) ?_ fun g hg => ?_
      · rw [list, List.filter_append, List.filter_eq_nil_iff.mpr fun r hr => by simpa using h.free q rfl r hr]
        simp
      · rw [table]
        exact h.pins.known g (mem_pins (pin q ▸ hg))
    · have agrees := h.port q fun e => hq (Option.some.inj e).symm
      refine agrees.congr (agrees.backed (pin q) (by rw [other q hq]) table ?_ fun n hn => by rwa [holds] at hn)
        (by rw [other q hq]) (by rw [path]) (by rw [engine]) (by rw [engine])
      rw [list, List.filter_append, List.filter_cons_of_neg (by simpa using fun e => hq e.symm), List.filter_nil,
        List.append_nil]
  · rw [table, State.pins, pin, pin]
    exact h.pins

/-- A request of the port left out is granted or waits; either way the port agrees again (R88, R93). -/
theorem Agrees.request (h : Agrees (fun _ => False) (some p) s) (c : Claiming s p set) (v : Vacant s p)
    (handling : IsolationHandling) : Agrees (fun _ => False) none (Machine.request p set handling s) := by
  unfold Machine.request
  dsimp only
  split
  · rw [grant_eq]
    obtain ⟨others, own⟩ := h.granted c v.held s.waitList nofun (h.free p rfl) (fun _ _ => rfl) h.free
    exact others.rejoin own
  · have waits := h.enqueue c v handling
    generalize Machine.modContext p _ _ = w at waits
    generalize List.filter _ (segMembers set) = l
    induction l generalizing w with
    | nil => exact waits
    | cons n l ih => exact ih _ (waits.arbiterIsolation n)

/-- The segments kept for a new phase are those of its claim (R72, R100). -/
theorem Agrees.keepSegments (h : Agrees (fun _ => False) (some p) s) (c : Claiming s p set) :
    Agrees (fun _ => False) none (Machine.keepSegments p set s) := by
  unfold Machine.keepSegments
  dsimp only
  have released := h.releaseSegments p false (segMem set)
  have members (n : SegId) (hn : (Machine.releaseSegments p false (segMem set) s).holds p n = true) :
      segMem set n = true := by
    rw [holds_iff, releaseSegments_segment] at hn
    split at hn
    · rw [released_heldBy] at hn; cases hn
    next kept => simpa [hn] using kept
  have claims : Claiming (Machine.releaseSegments p false (segMem set) s) p set := c.congr rfl rfl rfl rfl
  generalize Machine.releaseSegments p false (segMem set) s = v at released members claims
  generalize hf : (fun (n : SegId) (y : Segment) => if segMem set n = true then _ else y) = f
  have heldBy (n : SegId) (y : Segment) : (f n y).heldBy = y.heldBy := by
    rw [← hf]
    dsimp only
    split
    · exact modHeld_heldBy _ y fun _ => rfl
    · rfl
  have kept := ((released.modSegments f fun n q hq => by rwa [heldBy] at hq).pathOut
    (·.toAddress set)).contextOut (fun c => { c with state := .addressing }) rfl nofun
  refine kept.rejoin (.addressing (set := set) (claims.congr ?_ ?_ rfl rfl) ?_ (kept.free p rfl) ?_ (fun n hn => ?_)
    fun g hg => kept.pins.known g (mem_pins hg))
  · rw [modContext_context_same]; rfl
  · rw [modContext_context_same]; rfl
  · rw [modContext_context_same]
  · rw [modContext_path, modPath_path_same]; rfl
  · refine members n ((holds_iff ..).mpr ?_)
    have := (holds_iff ..).mp hn
    rwa [modContext_segment, modPath_segment, modSegments_segment, heldBy] at this

/-- A claim keeps its segments, or leaves them and requests its set (R72). -/
theorem Agrees.placeClaim (h : Agrees (fun _ => False) (some p) s) (c : Claiming s p set) (claim : Claim) :
    Agrees (fun _ => False) none (Machine.placeClaim p claim set s) := by
  unfold Machine.placeClaim
  dsimp only
  have claimed := (h.contextOut (fun c => { c with waitTimer := some (s.record p).waitLimit }) rfl nofun).pathOut
    fun q => { q with claim := some claim, sums := Vector.replicate 8 0 }
  have claims : Claiming (Machine.modPath p (fun q => { q with claim := some claim, sums := Vector.replicate 8 0 })
      (Machine.modContext p (fun c => { c with waitTimer := some (s.record p).waitLimit }) s)) p set := by
    refine c.congr ?_ ?_ rfl rfl <;> rw [modPath_context, modContext_context_same]
  generalize Machine.modPath p _ _ = w at claimed claims
  exact .ite (claimed.keepSegments claims)
    ((claimed.releaseAll false).request (claims.congr rfl rfl rfl rfl) (vacant_releaseAll p false w) _)

/-! ### The decision (R66 to R72) -/

/-- A FORWARD entry refuses the phase, or places its claim on segments of the entry (R29, R26, R34, R70 to R72). -/
theorem Agrees.decideForward (h : Agrees (fun _ => False) (some p) s) (c : Claiming s p set) (addr : Addr)
    (dir : Direction) (chained : Bool) (e : RouteEntry) (translate : Addr) (policy : ProfileId) (f : Profile) :
    Agrees (fun _ => False) none (Machine.decideForward p addr dir chained e set translate policy f s) := by
  unfold Machine.decideForward
  refine .ite (h.refuseOut ..) (.ite (h.refuseOut ..) ?_)
  dsimp only
  split
  · exact h.refuseOut ..
  next less claimed =>
    refine .ite (h.refuseOut ..) ?_
    have credited : Agrees (fun _ => False) (some p) { s with
        credits := s.credits.set policy (requestCredit s.table.active.profiles[policy] s.credits[policy]).2 } :=
      h.same rfl rfl rfl rfl rfl rfl
    refine (credited.contextOut (fun c => { c with phaseCount := some 0, traceOwed := f.logTransactions }) rfl
      nofun).placeClaim ((c.subset (segMem_of_claimSet claimed)).congr ?_ ?_ rfl rfl) _ <;>
      rw [modContext_context_same] <;> rfl

/-- The answer to an address byte whose port takes no part in forwarding; after a NAK the port is passive (R10). -/
theorem AtRest.answerAddress (h : AtRest p s) (a : Ack) (state : (s.context p).state.pinned = false)
    (naked : a = .nak → (s.context p).state.passive = true) :
    Agrees (fun _ => False) none (Machine.answerAddress p a s) := by
  refine (h.engine _).settle state fun given => .inl (naked ?_)
  rw [modEngine_engine_same] at given
  exact beq_iff_eq.mp given

theorem Agrees.decideNoMatch (h : Agrees (fun _ => False) (some p) s) :
    Agrees (fun _ => False) none (Machine.decideNoMatch p s) := by
  have left := h.leaveForwarding
  refine (left.context (fun c => { c with state := .ignoring, route := none, policy := none }) left.pin).answerAddress
    .nak ?_ fun _ => ?_ <;> rw [modContext_context_same] <;> rfl

theorem Agrees.decideManagement (h : Agrees (fun _ => False) (some p) s) (dir : Direction) :
    Agrees (fun _ => False) none (Machine.decideManagement p dir s) := by
  have left := h.leaveForwarding
  have unrouted := left.context (fun c => { c with route := none, policy := none }) left.pin
  unfold Machine.decideManagement
  dsimp only
  generalize Machine.modContext p (fun c => { c with route := none, policy := none }) _ = w at unrouted
  cases dir with
  | write =>
    refine ((unrouted.context (fun c => { c with state := .mgmtWrite }) unrouted.pin).record _).answerAddress .ack ?_
      nofun
    rw [modRecord_context, modContext_context_same]
    rfl
  | read =>
    refine ((unrouted.context (fun c => { c with state := .mgmtRead }) unrouted.pin).record _).answerAddress .ack ?_
      nofun
    rw [modRecord_context, modContext_context_same]
    rfl

theorem bankOf_hitCounted (i : RouteId) (pin : Option (BitVec 16)) :
    (hitCounted p i s).table.bankOf pin = s.table.bankOf pin := by
  unfold hitCounted
  split <;> rfl

/-- Once the address is searched the context has a pin; its engine is as before (R46). -/
theorem searching_engine_pin (p : Port) (s : State) :
    (searching p s).engine p = s.engine p ∧ ((searching p s).context p).pin.isSome = true := by
  obtain ⟨g, hg⟩ := searching_pinned p s
  rw [hg]
  refine ⟨rfl, ?_⟩
  rw [withRecord_context, withContext_context_same]
  rfl

/-- The lookup decides: no match, a denial, or a FORWARD entry whose set the phase may claim (R66, R68). -/
theorem Agrees.decideRoute (h : Agrees (fun _ => False) (some p) s) (hold : (s.engine p).hold = .address)
    (naked : (s.engine p).addressNaked = false) (addr : Addr) (dir : Direction) :
    Agrees (fun _ => False) none (Machine.decideRoute p addr dir s) := by
  have searched : Agrees (fun _ => False) (some p) (searching p s) := by
    rw [← requestPin_eq]
    exact (h.record p _).requestPin
  obtain ⟨engine, pin⟩ := searching_engine_pin p s
  cases hl : lookup (searchedBank p (searching p s)) p addr with
  | none =>
    rw [decideRoute_noMatch p addr dir s hl]
    exact searched.decideNoMatch
  | some i =>
    have hit : Agrees (fun _ => False) (some p) (hitCounted p i (searching p s)) := by
      rw [← hitCounted_eq]
      exact .ite (searched.countHit i) searched
    have context : (hitCounted p i (searching p s)).context p = (searching p s).context p := by
      rw [hitCounted_frame]
      rfl
    cases he : ((searchedBank p (searching p s)).entries[i]).action with
    | deny =>
      rw [decideRoute_deny p addr dir i s hl he]
      exact (hit.contextOut (fun c => { c with route := some i, policy := none }) rfl nofun).refuseOut ..
    | forward g d f =>
      rw [decideRoute_forward p addr dir i g d f s hl he]
      refine (hit.contextOut (fun c => { c with route := some i, policy := some f }) rfl nofun).decideForward ?_ ..
      have hit_engine : (hitCounted p i (searching p s)).engine p = s.engine p := by
        rw [hitCounted_frame]
        exact engine
      refine ⟨?_, ?_, ?_, fun n hn => ⟨i, ?_, ?_⟩⟩
      · rw [modContext_context_same, context]; exact pin
      · rw [modContext_engine, hit_engine]; exact hold
      · rw [modContext_engine, hit_engine]; exact naked
      · rw [modContext_context_same]; rfl
      · rw [modContext_context_same, context, modContext_table, bankOf_hitCounted, bankOf_eq, routeHas, he]
        exact hn

theorem agreeing_address (h : Agrees (fun _ => False) none s) (p : Port) (addr : Addr) (dir : Direction) :
    Agreeing (execAddress p addr dir s) := by
  refine agreeing_reported h fun ha => .ite ?_ h
  have taken : Agrees (fun _ => False) (some p) (takeAddress p addr dir s) := by
    unfold takeAddress
    exact ((h.leave (ha.noRequest (h.port p nofun))).engineOut _).contextOut _ rfl nofun
  refine .ite (taken.decideManagement dir) (taken.decideRoute ?_ ?_ addr dir) <;> unfold takeAddress <;>
    rw [modContext_engine, modEngine_engine_same]

end decision

/-! ### Steps -/

/-- The records agree after every command. -/
theorem agreeing_exec {s : State} (h : Agrees (fun _ => False) none s) (c : Instr) : Agreeing (exec c s) := by
  cases c
  case powerOn high | rstAssert high =>
    rintro t ⟨⟩
    exact agrees_inReset high s
  case resetEnd => exact agreeing_resetEnd h
  case start p | repeatedStart p => exact agreeing_upstreamStart h p
  case stop p => exact agreeing_stop h p
  case address p addr dir => exact agreeing_address h p addr dir
  case writeByte p b => exact agreeing_writeByte h p b
  case readByteWanted p => exact agreeing_readByteWanted h p
  case controllerAcknowledge p a => exact agreeing_controllerAcknowledge h p a
  case byteComplete p => exact agreeing_byteComplete h p
  case busError p => exact agreeing_busError h p
  case managementWrite p bytes => exact agreeing_managementWrite h p bytes
  case addressWaitLimit p => exact agreeing_addressWaitLimit h p
  case idleLimit p => exact agreeing_idleLimit h p
  case refillTimer i => exact agreeing_refillTimer h i
  case timestampTick => exact agreeing_timestampTick h
  case quietIntervalObserved n => exact agreeing_quietIntervalObserved h n
  case deferredQuietObserved n => exact agreeing_deferredQuietObserved h n
  case addressOutcome p n r => exact agreeing_addressOutcome h p n r
  case writeAcknowledge n a => exact agreeing_writeAcknowledge h n a
  case readByteReceived n b => exact agreeing_readByteReceived h n b
  case acknowledgeSlotDone n => exact agreeing_acknowledgeSlotDone h n
  case arbitrationLoss n point => exact agreeing_arbitrationLoss h n point
  case segmentStartSeen n => exact agreeing_segmentStartSeen h n
  case segmentStopSeen n => exact agreeing_segmentStopSeen h n
  case lineLowWithoutStart n line => exact agreeing_lineLowWithoutStart h n line
  case stretchFault n => exact agreeing_stretchFault h n
  case stuckLineFault n line => exact agreeing_stuckLineFault h n line
  case stretchBudget n => exact agreeing_stretchBudget h n
  case closingStopDriven n => exact agreeing_closingStopDriven h n
  case recoveryAttemptEnd n r => exact agreeing_recoveryAttemptEnd h n r
  case recoveryWaitEnd n => exact agreeing_recoveryWaitEnd h n
  case copyBackEnd => exact agreeing_copyBackEnd h
  all_goals exact agreeing_command h _ _ _

/-- Settles O58: an idle step leaves the state, and every other is a command under which the records agree but for
the ports it has on their way. -/
theorem agreementKept : Obligations.AgreementKept := by
  unfold Obligations.AgreementKept
  intro s t hs hstep
  unfold step at hstep
  split at hstep
  · cases hstep
    exact hs
  next c rest _ => exact (agreeing_exec ((agreement_pending rest hs).agrees nofun) c t hstep).agreement

end Sys2Proof.Machine
end

section
/-! PROOFS. A received management write at the condition that ends it. -/

namespace Sys2Proof.Machine

/-! ### The reception of a write that is kept (R148) -/

/-- On a port that is not PENDING each of the first 18 bytes is kept. -/
theorem receiveByte_keeps (b : Byte) (r : Reception) (hf : r.refused = false) (hc : r.count ≤ 17) :
    (receiveByte false b r).1 = ⟨r.bytes ++ [b], r.count + 1, false⟩ := by
  rcases Nat.eq_zero_or_pos r.count with h0 | h0
  · rw [receiveByte_first b r h0, hf, h0]
  · rw [receiveByte_kept b r false h0 hc hf, hf, Nat.min_eq_left (by omega)]

/-- The bytes that follow those already kept are kept, up to 18 in all. -/
theorem foldl_receiveByte (bytes kept : List Byte) (h : kept.length + bytes.length ≤ 18) :
    bytes.foldl (fun r b => (receiveByte false b r).1) ⟨kept, kept.length, false⟩ =
      ⟨kept ++ bytes, kept.length + bytes.length, false⟩ := by
  induction bytes generalizing kept with
  | nil => simp
  | cons b bytes ih =>
    rw [List.length_cons] at h
    have key := ih (kept ++ [b]) (by rw [List.length_append, List.length_singleton]; omega)
    rw [List.foldl_cons, receiveByte_keeps b _ rfl (by simp only; omega)]
    rw [List.length_append, List.length_singleton] at key
    rw [key, List.append_assoc, List.singleton_append, List.length_cons, Nat.add_assoc, Nat.add_comm 1]

/-- A whole write of at most 18 bytes is kept on a port that is not PENDING. -/
theorem receiveAll_kept (bytes : List Byte) (h : bytes.length ≤ 18) :
    receiveAll false bytes = ⟨bytes, bytes.length, false⟩ := by
  simpa [receiveAll, Reception.empty] using foldl_receiveByte bytes [] (by simpa using h)

/-- On a port that takes it, a write of at most 18 bytes is examined as a reception that kept them all. -/
theorem execManagementWrite_kept (p : Port) (bytes : List Byte) (s : State) (ha : Accepts s p)
    (h : bytes.length ≤ 18) :
    execManagementWrite p bytes s =
      .next (dropReception p (examineReception p ⟨bytes, bytes.length, false⟩ s)) := by
  rw [execManagementWrite, act_next _ _ ha.1, ha.2, Option.isSome_none, receiveAll_kept bytes h]

/-! ### The hand-over at the boundary (R64, R80, R150) -/

theorem examineReception_discarded (p : Port) (r : Reception) (s : State)
    (h : r.refused = true ∨ r.count = 0) : examineReception p r s = s := by
  rw [examineReception, if_pos h]

theorem examineReception_length (p : Port) (r : Reception) (s : State)
    (hk : ¬ (r.refused = true ∨ r.count = 0)) (hl : r.count = 1 ∨ 19 ≤ r.count) :
    examineReception p r s = respond p .lengthError [] s := by
  rw [examineReception, if_neg hk, if_pos hl]

theorem handOver_eq {p : Port} {r : Reception} {s : State} (h : (s.record p).reception = some r) :
    handOver p s = dropReception p (examineReception p r s) := by
  rw [handOver, h]

/-- In MGMT_WRITE a repeated start hands the reception over, and the engine and the path begin a phase. -/
theorem execRepeatedStart_handOver (p : Port) (s : State) (h : Reports s p)
    (hs : (s.context p).state = .mgmtWrite) (hp : (s.path p).stage ≠ .readPresented) :
    execRepeatedStart p s = .next (modPath p Path.phaseEnd
      (modEngine p (fun e => { e.atCondition with addressNext := true }) (handOver p s))) := by
  rw [execRepeatedStart_eq p s h, endPresented, if_neg hp, closePhase, hs]

/-- In MGMT_WRITE a stop hands the reception over, and then the port is IDLE. -/
theorem execStop_handOver (p : Port) (s : State) (h : Reports s p)
    (hs : (s.context p).state = .mgmtWrite) (hp : (s.path p).stage ≠ .readPresented) :
    execStop p s = .next (modPath p Path.phaseEnd
      (modEngine p (fun e => { e.atCondition with tracker := .idle, addressNext := false })
        (modRecord p (fun r => { r with reception := none, readCopy := none })
          (modContext p (fun _ => Context.idle) (handOver p s))))) := by
  rw [execStop, reported_next _ _ _ h, endPresented, if_neg hp, closeTransaction, hs]

/-- Settles O13: the hand-over is told by the reception, and the boundary acts on what it leaves. -/
theorem writeIsExecutedAtItsEnd : Obligations.WriteIsExecutedAtItsEnd := by
  unfold Obligations.WriteIsExecutedAtItsEnd
  intro s u p r h hs hp hr hu e
  have handed : handOver p s = u := by
    rw [handOver_eq hr]
    split at hu
    next discarded => rw [examineReception_discarded p r s discarded, hu]; rfl
    next kept =>
      split at hu
      next length => rw [examineReception_length p r s kept length, dropReception_respond, hu]
      next within =>
        obtain ⟨hlen, hcommand, hexec⟩ := hu
        have hkept : (⟨r.bytes, r.bytes.length, false⟩ : Reception) = r := by
          rw [hlen, ← Bool.eq_false_of_not_eq_true fun k => kept (.inl k)]
        have hrun := execManagementWrite_kept p r.bytes s ⟨h.1, hcommand⟩ (by omega)
        rw [hkept] at hrun
        exact Host.Outcome.next.inj (hrun.symm.trans hexec)
  constructor
  · refine (execRepeatedStart_handOver p s h hs hp).trans ?_
    rw [handed]; rfl
  · refine (execStop_handOver p s h hs hp).trans ?_
    rw [handed]
    cases p <;> rfl

end Sys2Proof.Machine
end

section
/-! PROOFS. SEGMENT ISOLATE and the stretch fault. -/

namespace Sys2Proof.Machine

/-! ### The command and the entry into ISOLATED (R141) -/

theorem segArg_ofNat (n : SegId) : segArg (BitVec.ofNat 8 n.val) = some n := by
  have := n.isLt
  have value : (BitVec.ofNat 8 n.val).toNat = n.val := by rw [BitVec.toNat_ofNat]; omega
  simp [segArg, value]

theorem execSegmentIsolate_eq (p : Port) (n : SegId) (s : State) (ha : Accepts s p)
    (hf : FullRights s p) :
    execSegmentIsolate p (BitVec.ofNat 8 n.val) s =
      .next (dropReception p (opSegmentIsolate p (BitVec.ofNat 8 n.val) s)) :=
  command_full p .segmentIsolate _ s ha hf

/-- The entry into ISOLATED: the event of the segment first, then the arbiter (R93, R141). -/
theorem enterIsolated_eq (n : SegId) (p : Option Port) (detail : Byte) (s : State) :
    enterIsolated n p detail s =
      isolationMet n (raise ⟨.segmentIsolated, p, some n, none, none, detail⟩
        (withSegment n { s.segment n with state := .isolated, quiet := none } s)) :=
  arbiterIsolation_eq ..

/-- Isolated at once by a command of the port, and answered OK. -/
theorem dropReception_isolatedNow (p : Port) (n : SegId) (s : State) :
    dropReception p (respond p .ok [] (enterIsolated n (some p) 1 s)) =
      answered p .ok [] (isolationMet n (raise ⟨.segmentIsolated, some p, some n, none, none, 1⟩
        (withSegment n { s.segment n with state := .isolated, quiet := none } s))) := by
  rw [dropReception_respond, enterIsolated_eq]

/-! ### What SEGMENT ISOLATE does, by the state of the segment (R141) -/

section isolate

variable {p : Port} {n : SegId} {s : State}

theorem opSegmentIsolate_free
    (hx : (s.segment n).state = .idle ∨ (s.segment n).state = .unsynced ∨
      (s.segment n).state = .foreign) :
    opSegmentIsolate p (BitVec.ofNat 8 n.val) s =
      respond p .ok [] (enterIsolated n (some p) 1 s) := by
  rcases hx with hx | hx | hx <;> simp only [opSegmentIsolate, segArg_ofNat, hx]

theorem opSegmentIsolate_recovering {r : RecoveringRec} (hx : (s.segment n).state = .recovering r) :
    opSegmentIsolate p (BitVec.ofNat 8 n.val) s =
      respond p .ok [] (enterIsolated n (some p) 1 (match r.requestedBy with
        | some q => completed q .aborted [0x06] s
        | none => s)) := by
  simp only [opSegmentIsolate, segArg_ofNat, hx]
  cases r.requestedBy <;> rfl

theorem opSegmentIsolate_held {h : HeldRec} (hx : (s.segment n).state = .held h) :
    opSegmentIsolate p (BitVec.ofNat 8 n.val) s = isolateHeld p h.port n s := by
  simp only [opSegmentIsolate, segArg_ofNat, hx]

theorem opSegmentIsolate_closing {c : ClosingRec} (hx : (s.segment n).state = .closing c)
    (hi : c.isolation = none) :
    opSegmentIsolate p (BitVec.ofNat 8 n.val) s = respondPending p (.segmentIsolate n)
      (withSegment n { s.segment n with state := .closing { c with isolation := some ⟨p, true⟩ } } s) := by
  simp only [opSegmentIsolate, segArg_ofNat, hx, hi, modSegment_eq]

theorem opSegmentIsolate_marked {c : ClosingRec} {i : IsolationPending}
    (hx : (s.segment n).state = .closing c) (hi : c.isolation = some i) :
    opSegmentIsolate p (BitVec.ofNat 8 n.val) s = respond p .busy [] s := by
  simp only [opSegmentIsolate, segArg_ofNat, hx, hi]

theorem opSegmentIsolate_isolated (hx : (s.segment n).state = .isolated) :
    opSegmentIsolate p (BitVec.ofNat 8 n.val) s = respond p .wrongState [] s := by
  simp only [opSegmentIsolate, segArg_ofNat, hx]

end isolate

/-! ### The only waiting request at an isolation (R74, R93) -/

/-- The denial of a phase leaves the wait list (R69). -/
theorem deniedPhase_waitList (p : Port) (kind : EventKind) (seg : Option SegId) (s : State) :
    (deniedPhase p kind seg s).waitList = s.waitList :=
  (deniedPhase_other (otherPort p) p kind seg s (otherPort_ne p).symm).2

theorem isolationMet_single {n : SegId} {r : Request} {s : State} (hl : s.waitList = [r])
    (hm : segMem r.segments n = true) : isolationMet n s = examine (requestIsolated n r s) := by
  simp [isolationMet, hl, hm]

/-- Refused under WITHDRAW or with no other member left: nothing is left to examine. -/
theorem isolationMet_refused {n : SegId} {r : Request} {s : State} (hl : s.waitList = [r])
    (hm : segMem r.segments n = true)
    (h : r.handling = .withdraw ∨ ∀ m : SegId, segMem r.segments m = true → m = n) :
    isolationMet n s = deniedPhase r.port .denySegmentDown (some n) { s with waitList := [] } := by
  have gone : (s.waitList.filter fun o => o.port != r.port) = [] := by simp [hl]
  rw [isolationMet_single hl hm, requestIsolated, if_pos h, gone, examine_nil _ (deniedPhase_waitList ..)]

/-- Under DROP, with another member left, the request goes on without the segment. -/
theorem isolationMet_dropped {n : SegId} {r : Request} {s : State} (hl : s.waitList = [r])
    (hm : segMem r.segments n = true) (hd : r.handling = .drop)
    (h : ∃ m : SegId, m ≠ n ∧ segMem r.segments m = true) :
    isolationMet n s = examine { s with
      waitList := [{ r with segments := r.segments &&& ~~~(1#8 <<< n.val) }] } := by
  obtain ⟨m, hne, hmem⟩ := h
  have kept : ¬ (r.handling = .withdraw ∨ ∀ m : SegId, segMem r.segments m = true → m = n) := by
    rintro (k | k)
    · rw [hd] at k; cases k
    · exact hne (k m hmem)
  rw [isolationMet_single hl hm, requestIsolated, if_neg kept, hl]
  simp

/-- Settles O27: each state has its own equation of the command, and the arbiter meets the entry. -/
theorem segmentIsolateByState : Obligations.SegmentIsolateByState := by
  unfold Obligations.SegmentIsolateByState
  intro s p n ha hf x run ev gone
  have hrun : run = .next (dropReception p (opSegmentIsolate p (BitVec.ofNat 8 n.val) s)) :=
    execSegmentIsolate_eq p n s ha hf
  refine ⟨fun hx => ?_, fun r hx => ?_, fun c hx hi => ?_, fun c i hx hi => ?_, fun hx => ?_⟩
  · have free : run = .next (answered p .ok [] (gone s)) := by
      rw [hrun, opSegmentIsolate_free hx, dropReception_isolatedNow]
    refine ⟨free, fun r hl hm => ?_⟩
    intro u others
    have waiting : u.waitList = [r] := (raise_waitList ..).trans hl
    refine ⟨fun h => ?_, fun hd ho => ?_⟩
    · refine free.trans (congrArg _ (congrArg _ (isolationMet_refused waiting hm (h.imp_right fun alone => ?_))))
      exact fun m hmem => Decidable.byContradiction fun hne => alone ⟨m, hne, hmem⟩
    · exact free.trans (congrArg _ (congrArg _ (isolationMet_dropped waiting hm hd ho)))
  · rw [hrun, opSegmentIsolate_recovering hx, dropReception_isolatedNow]
    cases r.requestedBy <;> rfl
  · rw [hrun, opSegmentIsolate_closing hx hi, dropReception_respondPending]
  · rw [hrun, opSegmentIsolate_marked hx hi, dropReception_respond]
  · rw [hrun, opSegmentIsolate_isolated hx, dropReception_respond]

/-! ### SEGMENT ISOLATE of a held segment (R82, R83, R136, R141) -/

theorem releasedSegments_get (p : Port) (byAbort : Bool) (n : SegId) (s : State)
    (h : (s.segment n).heldBy = some p) :
    (releasedSegments p byAbort s)[n] = (s.segment n).released byAbort ((s.path p).completionOf n) := by
  simp [releasedSegments, h]

/-- A held segment that its holder's abort releases is closing, or its closing has ended (R94, R136). -/
theorem abortedState_segment_held (n : SegId) {h : HeldRec} (s : State)
    (hx : (s.segment n).state = .held h) :
    (∃ c, ((abortedState h.port s).segment n).state = .closing c) ∨
      ((abortedState h.port s).segment n).state = .unsynced := by
  have hr : (abortedState h.port s).segment n =
      (s.segment n).released true ((s.path h.port).completionOf n) :=
    releasedSegments_get h.port true n s (heldBy_of_held hx)
  rw [hr]
  cases hd : h.deferred with
  | false => exact .inl ⟨_, by rw [released_inControl true _ hx hd]⟩
  | true =>
    cases hw : h.winnerStop with
    | false => exact .inl ⟨_, by rw [released_deferred true _ hx hd hw]⟩
    | true => exact .inr (by rw [released_winnerStop true _ hx hd hw])

/-- Settles O28: the abort releases the segment, and its state then says whether the isolation is pending. -/
theorem segmentIsolateOfHeldAborts : Obligations.SegmentIsolateOfHeldAborts := by
  unfold Obligations.SegmentIsolateOfHeldAborts
  rintro s p _ n h ha hf hx rfl hc hw u
  have aborted : abort h.port .isolate s = u := abort_eq h.port .isolate s hc hw
  refine (execSegmentIsolate_eq p n s ha hf).trans (congrArg _ ?_)
  rw [opSegmentIsolate_held hx, isolateHeld, aborted]
  rcases abortedState_segment_held n s hx with ⟨c, hu⟩ | hu
  · simp only [show (u.segment n).state = .closing c from hu, modSegment_eq, dropReception_respondPending]
  · simp only [show (u.segment n).state = .unsynced from hu, dropReception_isolatedNow]

/-! ### The stretch fault (R95, R133, R135) -/

/-- A fault on a held segment, otherwise as x says: it leaves its state, and its holder is aborted (R95). -/
theorem abort_afterFault (n : SegId) (p : Port) (x : Segment) (s : State)
    (hc : (s.context p).state.holding = true) (hw : NoRequest s p) :
    abort p .downFault (afterFault n (some p) x s) = abortedState p (afterFault n (some p) x s) := by
  obtain ⟨context, noRequest⟩ := afterFault_other p n (some p) x s hw
  exact abort_eq p .downFault _ (by rw [context]; exact hc) noRequest

/-- Settles O51: the measurement, the two events and the counters, then the way out of the state. -/
theorem stretchFaultAborts : Obligations.StretchFaultAborts := by
  unfold Obligations.StretchFaultAborts
  intro s n hr x limit faulted run
  have hrun : run = execStretchFault n s := rfl
  unfold execStretchFault at hrun
  rw [act_next _ _ hr] at hrun
  have reached : measure n (fun m => { m with heldInterval := limit.toNat }) s =
      withSegment n { x with lines := { x.lines with heldInterval := limit.toNat } } s := rfl
  refine ⟨fun h hx hd hc hw => ?_, fun c hx hd => ?_⟩
  · intro c
    rw [hrun, ← abort_afterFault n h.port _ _ (by simpa using hc) (by simpa [NoRequest] using hw)]
    simp only [show (s.segment n).state = .held h from hx, hd, Bool.false_eq_true, if_false]
    rw [reached, raise_withSegment, raise_withSegment, countFault_withSegment, countDeparture_withSegment,
      faultTransition_withSegment]
    simp only [phaseEvent, withSegment_context, raise_context]
    rfl
  · intro s1
    rw [hrun]
    simp only [show (s.segment n).state = .closing c from hx, hd, Bool.false_eq_true, if_false]
    rw [reached, raise_withSegment, raise_withSegment, countFault_withSegment, closingFault_withSegment]
    rfl

end Sys2Proof.Machine
end

section
/-! PROOFS. The address decision at the management address in effect. -/

namespace Sys2Proof.Machine

/-- The management address is settled before any route is searched (R66, R67). -/
theorem execAddress_management (p : Port) (dir : Direction) (s : State) (h : AddressReported s p) :
    execAddress p (s.record p).effAddr dir s =
      .next (decideManagement p dir (takenAddress p (s.record p).effAddr dir s)) := by
  rw [execAddress, reported_next _ _ _ h.1, if_pos h.2, takeAddress_eq]
  exact congrArg _ (if_pos rfl)

/-- Settles O35: forwarding is left as at a stop, and the direction says which record is opened. -/
theorem managementAddressAcknowledged : Obligations.ManagementAddressAcknowledged := by
  unfold Obligations.ManagementAddressAcknowledged
  intro s p dir h addr r c low byte status copy
  have hcopy : responseBytes r.response = copy := by
    simp only [responseBytes, copy, frameOf, status]
    cases r.response.status <;> rfl
  show execAddress p addr dir s = _
  rw [execAddress_management p dir s h]
  unfold decideManagement
  rw [leaveForwarding_eq]
  cases dir with
  | write => cases p <;> rfl
  | read =>
    rw [← hcopy]
    cases p <;> rfl

end Sys2Proof.Machine
end

section
/-! PROOFS. The examination of a wait list of at most two requests, the most that occur (R86, R89, R90). -/

namespace Sys2Proof.Machine

theorem segSet_inter_eq_zero_iff (a b : SegSet) :
    a &&& b = 0 ↔ ∀ n : SegId, ¬ (segMem a n = true ∧ segMem b n = true) := by
  rw [segSet_eq_zero_iff]
  simp [segMem]

/-! ### When a request is grantable (R89) -/

/-- With no older request, only the states of the members count. -/
theorem grantable_oldest_iff (s : State) (r : Request) : s.grantable [] r = true ↔
    ∀ n : SegId, segMem r.segments n = true → (s.segment n).state = .idle := by
  simp [grantable_iff]

/-- Behind one older request left waiting, a shared member is reserved for it. -/
theorem grantable_behind_iff (s : State) (o r : Request) : s.grantable [o] r = true ↔
    (∀ n : SegId, segMem r.segments n = true → (s.segment n).state = .idle) ∧
      ∀ n : SegId, ¬ (segMem o.segments n = true ∧ segMem r.segments n = true) := by
  rw [grantable_iff, ← segSet_inter_eq_zero_iff]
  simp

/-! ### The examination, request by request (R90) -/

theorem examineFrom_last (older : List Request) (r : Request) (s : State) :
    examineFrom older [r] s =
      if s.grantable older r then { granted r.port r.segments s with waitList := older }
      else { s with waitList := older ++ [r] } :=
  examineFrom_cons ..

theorem examine_one (r : Request) (s : State) (h : s.waitList = [r]) :
    examine s =
      if s.grantable [] r then { granted r.port r.segments s with waitList := [] } else s := by
  have kept : { s with waitList := [r] } = s := by rw [← h]
  rw [examine, h, examineFrom_last, List.nil_append, kept]

/-- The younger of two requests is judged in the state the elder's grant leaves, or behind the elder. -/
theorem examine_two (r r' : Request) (s : State) (h : s.waitList = [r, r']) :
    examine s =
      let s1 := granted r.port r.segments s
      if s.grantable [] r then
        if s1.grantable [] r' then { granted r'.port r'.segments s1 with waitList := [] }
        else { s1 with waitList := [r'] }
      else if s.grantable [r] r' then { granted r'.port r'.segments s with waitList := [r] }
      else s := by
  have kept : { s with waitList := [r, r'] } = s := by rw [← h]
  rw [examine, h, examineFrom_cons, examineFrom_last, examineFrom_last]
  simp only [List.nil_append, List.cons_append, kept]

/-- Settles O34: each clause is one branch of the examination of its list. -/
theorem examinationGrantsInOrder : Obligations.ExaminationGrantsInOrder := by
  unfold Obligations.ExaminationGrantsInOrder
  intro s r r' ready apart grantOf
  have oldest (u : State) (o : Request) : u.grantable [] o = true ↔ ready u o := grantable_oldest_iff u o
  have behind : s.grantable [r] r' = true ↔ ready s r' ∧ apart := grantable_behind_iff s r r'
  refine ⟨examine_nil s, fun h hr => ?granted, fun h hr => ?kept, fun h hr hr' => ?bothKept,
    fun h hr hr' ha => ?youngerGranted, fun h hr hr' => ?bothGranted, fun h hr hr' => ?elderGranted⟩
  case granted => rw [examine_one r s h, if_pos ((oldest s r).mpr hr)]
  case kept => rw [examine_one r s h, if_neg (mt (oldest s r).mp hr)]
  case bothKept =>
    rw [examine_two r r' s h, if_neg (mt (oldest s r).mp hr), if_neg (mt behind.mp hr')]
  case youngerGranted =>
    rw [examine_two r r' s h, if_neg (mt (oldest s r).mp hr), if_pos (behind.mpr ⟨hr', ha⟩)]
  case bothGranted =>
    rw [examine_two r r' s h, if_pos ((oldest s r).mpr hr), if_pos ((oldest _ r').mpr hr')]
  case elderGranted =>
    rw [examine_two r r' s h, if_pos ((oldest s r).mpr hr), if_neg (mt (oldest _ r').mp hr')]

end Sys2Proof.Machine
end

section
/-! PROOFS. A write byte in WRITING: forwarded below the write limit, refused at it. -/

namespace Sys2Proof.Machine

/-- In WRITING, between bytes, the byte is taken in and put to the length check (R105, R108). -/
theorem execWriteByte_writing (p : Port) (b : Byte) (s : State) (h : Reports s p)
    (hn : (s.engine p).addressNext = false) (hk : (s.engine p).addressNaked = false)
    (hs : (s.context p).state = .writing) (hg : (s.path p).stage = .between) :
    execWriteByte p b s =
      .next (writeForwarding p b (modEngine p (fun e => { e with bits := 8, shifter := b }) s)) := by
  have hpassive : ¬ s.passive p = true := by simp [State.passive, hs, hk, CtxState.passive]
  rw [execWriteByte, reported_next _ _ _ h, if_neg (by simp [hn])]
  simp only [if_neg hpassive, hs, if_pos hg]

/-- The length check compares the phase byte count with the write limit of the claim (R108). -/
theorem writeForwarding_eq {p : Port} {c : Claim} {k : Byte} (b : Byte) {s : State}
    (hc : (s.path p).claim = some c) (hk : (s.context p).phaseCount = some k) :
    writeForwarding p b s =
      if c.maxWrite ≠ 0 ∧ k = c.maxWrite then limitWrite p s else forwardWrite p b s := by
  simp only [writeForwarding, hc, hk, Option.map_some, Option.getD_some, Option.some.injEq]

theorem limitWrite_eq {p : Port} {k : Byte} {s : State} (hk : (s.context p).phaseCount = some k) :
    limitWrite p s =
      raise ⟨.lengthWrite, some p, none, (s.context p).upstream, (s.context p).route, k⟩
        (withContext p { s.context p with state := .limited } (giveAck p .nak s)) := by
  simp only [limitWrite, hk, Option.getD_some, phaseEvent, modContext_eq, withContext_context_same, giveAck_eq,
    withEngine_context]

theorem forwardWrite_eq {p : Port} (b : Byte) {k : Byte} {s : State}
    (hk : (s.context p).phaseCount = some k) :
    forwardWrite p b s =
      withContext p { s.context p with phaseCount := some (satInc k) }
        (withPath p
          { s.path p with stage := .writeByte, byte := some b, targetSending := none,
                          outcomes := Vector.ofFn fun n => if s.holds p n then some .pending else none }
          (withEngine p { s.engine p with hold := .write } s)) := by
  have counted : (s.context p).phaseCount.map satInc = some (satInc k) := by rw [hk]; rfl
  rw [← counted]
  cases p <;> rfl

/-- Settles O40: the length check of the taken byte tells the two cases. -/
theorem writeByteForwardedOrLimited : Obligations.WriteByteForwardedOrLimited := by
  unfold Obligations.WriteByteForwardedOrLimited
  intro s p b c k h hn hnaked hs hg hc hk e x
  refine (execWriteByte_writing p b s h hn hnaked hs hg).trans (congrArg _ ?_)
  generalize ht : modEngine p (fun e => { e with bits := 8, shifter := b }) s = t
  have context : t.context p = x := by rw [← ht]; rfl
  have path : t.path p = s.path p := by rw [← ht]; rfl
  rw [writeForwarding_eq b (by rw [path, hc]) (by rw [context, hk])]
  split
  case isTrue =>
    rw [limitWrite_eq (by rw [context, hk]), context, ← ht, giveAck_taken p b .nak s h.2.2]
  case isFalse =>
    rw [forwardWrite_eq b (by rw [context, hk]), satInc_byte, context, path, ← ht]
    cases p <;> rfl

end Sys2Proof.Machine
end

section
/-! PROOFS. Arbitration losses, by the point of the loss and the state of the segment. -/

namespace Sys2Proof.Machine

@[simp] theorem countLoss_withSegment (n : SegId) (x : Segment) (s : State) :
    countLoss n (withSegment n x s) = withSegment n { x with arbLosses := satInc x.arbLosses } s := by
  simp [countLoss, modSegment_eq]

/-! ### A loss in the start or the address byte (R101, R130) -/

/-- The segment after a loss in the start or the address byte: the loss counted, one more try, deferred. -/
def Segment.addressLost (h : HeldRec) (x : Segment) : Segment :=
  { x with arbLosses := satInc x.arbLosses, quiet := none
           state := .held { h with tries := h.tries + 1, deferred := true, winnerStop := false
                                   completion := .none } }

theorem addressLost_exhausted_iff (h : HeldRec) (x : Segment) :
    (x.addressLost h).exhausted = true ↔ x.inUse.retry.toNat < h.tries + 1 := by
  simp [Segment.addressLost, Segment.exhausted, Segment.deferred, Segment.tries]

theorem loseAddress_eq (n : SegId) (h : HeldRec) (s : State) :
    loseAddress n h s =
      let lost := withSegment n ((s.segment n).addressLost h) s
      if (s.segment n).inUse.retry.toNat < h.tries + 1 then addressReport h.port n .exhausted lost
      else lost := by
  have lost : modSegment n (fun x => { x with
        state := .held { h with tries := h.tries + 1, deferred := true, winnerStop := false
                                completion := .none }
        quiet := none }) (countLoss n s) = withSegment n ((s.segment n).addressLost h) s := by
    rw [countLoss, modSegment_eq, modSegment_eq, withSegment_segment_same, withSegment_withSegment]; rfl
  simp only [loseAddress, lost, withSegment_segment_same, addressLost_exhausted_iff]

/-- A segment past the retry limit that port p holds can report EXHAUSTED to its path (R101, R130). -/
theorem canReport_exhausted {p : Port} {n : SegId} {s : State} (hb : (s.segment n).heldBy = some p)
    (he : (s.segment n).exhausted = true) : s.canReport p n .exhausted = true := by
  simp [State.canReport, he, hb, (otherPort_ne p).symm]

/-! ### A loss in a write data byte (R132) -/

theorem execArbitrationLoss_writeByte {n : SegId} {h : HeldRec} {s : State} (hr : s.resetActive = false)
    (hx : (s.segment n).state = .held h) (hd : h.deferred = false) (hg : (s.path h.port).stage = .writeByte)
    (ho : (s.path h.port).outcomes[n] = some .pending) :
    execArbitrationLoss n .data s = .next (loseData n h s) := by
  have driven : ¬ (h.deferred = true ∨ (s.path h.port).outcomes[n] ≠ some .pending) := by simp [hd, ho]
  unfold execArbitrationLoss
  rw [act_next _ _ hr]
  simp only [hx]
  rw [if_neg driven, if_pos hg]

theorem loseData_eq (n : SegId) (h : HeldRec) (s : State) (hc : (s.context h.port).state.holding = true)
    (hw : NoRequest s h.port) :
    loseData n h s = abortedState h.port
      (raise ⟨.arbLostData, some h.port, some n, (s.context h.port).upstream, (s.context h.port).route,
          (s.context h.port).phaseCount.getD 0⟩
        (withSegment n { s.segment n with arbLosses := satInc (s.segment n).arbLosses, state := .foreign
                                          quiet := none, aborts := satInc (s.segment n).aborts } s)) := by
  rw [← abort_eq h.port .downFault _ (by rw [raise_context]; exact hc) (by simpa [NoRequest] using hw),
    raise_withSegment]
  simp only [loseData, phaseEvent, countLoss, countDeparture, modSegment_eq, withSegment_segment_same,
    withSegment_withSegment, raise_segment]

/-! ### A loss in a completion of closing (R135) -/

theorem arbitrated_iff (c : Completion) :
    c.arbitrated = true ↔ c = .finishWrite ∨ ∃ d, c = .finishAddress d := by
  cases c <;> simp [Completion.arbitrated]

theorem execArbitrationLoss_closing {n : SegId} {c : ClosingRec} {s : State} (point : LossPoint)
    (hr : s.resetActive = false) (hx : (s.segment n).state = .closing c) (hd : c.deferred = false)
    (hc : c.completion.arbitrated = true) :
    execArbitrationLoss n point s = .next (withSegment n
      { s.segment n with arbLosses := satInc (s.segment n).arbLosses
                         state := .closing { c with deferred := true, completion := .none } } s) := by
  unfold execArbitrationLoss
  rw [act_next _ _ hr]
  simp only [hx]
  rw [if_pos ⟨hd, hc⟩, modSegment_eq, countLoss_withSegment]

/-- Settles O48: the record of the held or closing segment and the stage of the path say what the loss does. -/
theorem arbitrationLosses : Obligations.ArbitrationLosses := by
  unfold Obligations.ArbitrationLosses
  intro s n hr x lost
  refine ⟨fun h hx hd hg ho => ?address, fun h hx hd hg ho hc hw => ?data, fun c point hx hd hc => ?closing⟩
  case address =>
    intro h' s1
    have run : exec (.arbitrationLoss n .address) s = .next (loseAddress n h s) :=
      execArbitrationLoss_opening hr hx hd hg ho
    have segment : s1.segment n = x.addressLost h := withSegment_segment_same ..
    refine ⟨fun within => ?_, fun past => ?_⟩
    · rw [run, loseAddress_eq, if_neg (Nat.not_lt.mpr within)]; rfl
    · have reports : s1.canReport h.port n .exhausted = true :=
        canReport_exhausted (by rw [segment]; rfl)
          (by rw [segment]; exact (addressLost_exhausted_iff h x).mpr past)
      calc exec (.arbitrationLoss n .address) s
          = .next (addressReport h.port n .exhausted s1) := by rw [run, loseAddress_eq, if_pos past]; rfl
        _ = execAddressOutcome h.port n .exhausted s1 := by
          rw [execAddressOutcome_eq h.port n .exhausted s1 hr, if_pos reports]
  case data => exact (execArbitrationLoss_writeByte hr hx hd hg ho).trans (congrArg _ (loseData_eq n h s hc hw))
  case closing => exact execArbitrationLoss_closing point hr hx hd ((arbitrated_iff _).mpr hc)

end Sys2Proof.Machine
end

section
/-! PROOFS. SEGMENT STATUS, SEGMENT CONFIGURE, SEGMENT RESTORE and SEGMENT RECOVER. -/

namespace Sys2Proof.Machine

/-! ### SEGMENT STATUS and SEGMENT CONFIGURE (R123, R166, R184, R187) -/

/-- The number of a segment passes its range check: the report of its record (R166). -/
theorem opSegmentStatus_ofNat (p : Port) (n : SegId) (s : State) :
    opSegmentStatus p (BitVec.ofNat 8 n.val) s =
      respond p .ok ([segStateCode (s.segment n).state, portCodeOrAbsent (s.segment n).heldBy] ++
        bytes32 (s.segment n).grants ++ bytes16 (s.segment n).aborts ++ bytes16 (s.segment n).arbLosses ++
        bytes16 (s.segment n).faults ++
        [(s.segment n).recoveries, BitVec.ofNat 8 (s.segment n).failedAttempts]) s := by
  simp only [opSegmentStatus, segArg_ofNat]

/-- Only a HELD segment has a port in held by; every other state reports 0xFF (R166, R187). -/
theorem portCodeOrAbsent_heldBy (x : Segment) :
    portCodeOrAbsent x.heldBy = match x.state with
      | .held h => (match h.port with | .a => 0 | .b => 1)
      | _ => 0xFF := by
  unfold Segment.heldBy
  cases x.state with
  | held h => cases h.port <;> rfl
  | _ => rfl

/-- A speed byte counts by its bits 0 and 1 alone (R159, R184). -/
theorem speedOfByte_of_low_bits {v : Speed} {b : Byte}
    (h : b &&& 3 = (match v with | .khz100 => 0 | .khz400 => 1 | .mhz1 => 2)) :
    speedOfByte b = some v := by
  cases v <;> simp only [speedOfByte, h] <;> rfl

theorem boolArg_ite (b : Bool) : boolArg (if b then 1 else 0) = some b := by
  cases b <;> rfl

/-- Settles O26: the report is read off the record, and the configuration's arguments pass their range checks. -/
theorem segmentStatusAndConfigure : Obligations.SegmentStatusAndConfigure := by
  unfold Obligations.SegmentStatusAndConfigure
  intro s p n ha x number code
  refine ⟨?status, fun v speed quiet stretch retry auto hf hv least most hstretch hretry => ?configure⟩
  case status =>
    refine (command_unrestricted p .segmentStatus _ s ha rfl).trans (congrArg _ ?_)
    show dropReception p (opSegmentStatus p (BitVec.ofNat 8 n.val) s) = _
    rw [opSegmentStatus_ofNat, dropReception_respond, portCodeOrAbsent_heldBy]
    unfold segStateCode
    rfl
  case configure =>
    refine (command_full p .segmentConfigure _ s ha hf).trans (congrArg _ ?_)
    show dropReception p (opSegmentConfigure p (BitVec.ofNat 8 n.val) speed quiet stretch retry _ s) = _
    simp only [opSegmentConfigure, segArg_ofNat, speedOfByte_of_low_bits hv, boolArg_ite]
    rw [if_pos ⟨least, most, hstretch, hretry⟩, dropReception_respond, modSegment_eq]

/-! ### SEGMENT RESTORE and SEGMENT RECOVER (R137, R142, R143) -/

theorem opSegmentRestore_isolated {p : Port} {n : SegId} {s : State} (hx : (s.segment n).state = .isolated) :
    opSegmentRestore p (BitVec.ofNat 8 n.val) s =
      respond p .ok [] (raise ⟨.segmentRestored, some p, some n, none, none, 0⟩
        (withSegment n { s.segment n with state := .unsynced, quiet := some (s.segment n).inUse.quiet
                                          lines := ⟨(s.segment n).lines.heldInterval, 0, 0, 0⟩ } s)) := by
  simp only [opSegmentRestore, segArg_ofNat, hx, if_true, measure, modSegment_eq, withSegment_segment_same,
    withSegment_withSegment, Segment.toUnsynced]
  rfl

theorem opSegmentRestore_not_isolated {p : Port} {n : SegId} {s : State} (hx : (s.segment n).state ≠ .isolated) :
    opSegmentRestore p (BitVec.ofNat 8 n.val) s = respond p .wrongState [] s := by
  simp only [opSegmentRestore, segArg_ofNat, hx, if_false]

theorem enterRecovering_eq (n : SegId) (p : Option Port) (s : State) :
    enterRecovering n p s =
      withSegment n { s.segment n with state := .recovering ⟨p, false⟩, quiet := none,
                                       inUse := (s.segment n).stored, failedAttempts := 0 } s :=
  modSegment_eq ..

/-- Settles O29: the state of the segment says which answer each command gives. -/
theorem segmentRestoreAndRecover : Obligations.SegmentRestoreAndRecover := by
  unfold Obligations.SegmentRestoreAndRecover
  intro s p n ha hf x number
  constructor
  · refine (command_full p .segmentRestore _ s ha hf).trans (congrArg _ ?_)
    show dropReception p (opSegmentRestore p (BitVec.ofNat 8 n.val) s) = _
    split
    next isolated => rw [opSegmentRestore_isolated isolated, dropReception_respond]
    next elsewhere => rw [opSegmentRestore_not_isolated elsewhere, dropReception_respond]
  · refine (command_full p .segmentRecover _ s ha hf).trans (congrArg _ ?_)
    show dropReception p (opSegmentRecover p (BitVec.ofNat 8 n.val) s) = _
    simp only [opSegmentRecover, segArg_ofNat]
    cases x.state with
    | idle | unsynced | isolated => rw [dropReception_respondPending, enterRecovering_eq]
    | held | closing | recovering | foreign => rw [dropReception_respond]

end Sys2Proof.Machine
end

section
/-! PROOFS. The settings of the ports: what the operations of the device leave of them. -/

namespace Sys2Proof.Machine

-- One thread at a time elaborates this part: the compile stays within the check's memory.
set_option Elab.async false

/-! ### What the invariant reads of a management record (R146, R156) -/

/-- The rights of a port, its two management addresses and its two limits. -/
structure Settings where
  rights : Rights
  storedAddr : Addr
  effAddr : Addr
  waitLimit : Byte
  idleLimit : Byte

/-- The settings in a management record. -/
def MgmtRecord.settings (r : MgmtRecord) : Settings :=
  ⟨r.rights, r.storedAddr, r.effAddr, r.waitLimit, r.idleLimit⟩

/-- The settings of each port. -/
def State.settings (s : State) (p : Port) : Settings := (s.record p).settings

/-- The management addresses and the limits are in their ranges (R146, R159). -/
def Settings.InRange (x : Settings) : Prop :=
  (1 ≤ x.storedAddr.toNat ∧ x.storedAddr.toNat ≤ 119) ∧ (1 ≤ x.effAddr.toNat ∧ x.effAddr.toNat ≤ 119) ∧
    x.waitLimit ≠ 0 ∧ x.idleLimit ≠ 0

theorem managementOk_iff (s : State) :
    ManagementOk s ↔ (∃ p, (s.settings p).rights = .full) ∧ ∀ p, (s.settings p).InRange :=
  ⟨fun h => ⟨h.1.elim (⟨.a, ·⟩) (⟨.b, ·⟩), fun p => match p with | .a => h.2.1 | .b => h.2.2⟩,
    fun h => ⟨h.1.elim fun p hp => match p with | .a => .inl hp | .b => .inr hp, onPorts_of_forall h.2⟩⟩

theorem settings_eq_of_mgmt {s t : State} (h : t.mgmt = s.mgmt) : t.settings = s.settings := by
  funext p
  rw [State.settings, State.settings, State.record, h, State.record]

/-- An update of a record that leaves its settings leaves the settings of every port. -/
theorem modRecord_settings (p : Port) (f : MgmtRecord → MgmtRecord) (s : State)
    (h : ∀ r, (f r).settings = r.settings := by exact fun _ => rfl) : (modRecord p f s).settings = s.settings := by
  funext q
  rw [State.settings, State.settings, modRecord_record]
  split
  next same => rw [h, same]
  · rfl

@[simp] theorem ite_settings (c : Prop) [Decidable c] (s t : State) :
    (if c then s else t).settings = if c then s.settings else t.settings := apply_ite ..

/-! ### The operations the commands share -/

section shared

variable (p : Port) (n : SegId) (s : State)

@[simp] theorem modEngine_settings (f : Engine → Engine) : (modEngine p f s).settings = s.settings := rfl
@[simp] theorem modContext_settings (f : Context → Context) : (modContext p f s).settings = s.settings := rfl
@[simp] theorem modPath_settings (f : Path → Path) : (modPath p f s).settings = s.settings := rfl
@[simp] theorem modSegment_settings (f : Segment → Segment) : (modSegment n f s).settings = s.settings := rfl
@[simp] theorem modSegments_settings (f : SegId → Segment → Segment) :
    (modSegments f s).settings = s.settings := rfl
@[simp] theorem modTable_settings (f : TableControl → TableControl) : (modTable f s).settings = s.settings := rfl
@[simp] theorem waitList_settings (l : List Request) : { s with waitList := l }.settings = s.settings := rfl
@[simp] theorem credits_settings (v : Vector Credit 16) : { s with credits := v }.settings = s.settings := rfl
@[simp] theorem freeChoices_settings (k : Nat) : { s with freeChoices := k }.settings = s.settings := rfl

@[simp] theorem evalAlert_settings : (evalAlert p s).settings = s.settings := rfl
@[simp] theorem raise_settings (e : Event) : (raise e s).settings = s.settings :=
  settings_eq_of_mgmt (raise_mgmt e s)

@[simp] theorem respond_settings (x : Status) (d : List Byte) : (respond p x d s).settings = s.settings :=
  modRecord_settings p _ s
@[simp] theorem respondPending_settings (c : PendingCommand) : (respondPending p c s).settings = s.settings :=
  modRecord_settings p _ s
@[simp] theorem respondFinal_settings (x : Status) (d : List Byte) :
    (respondFinal p x d s).settings = s.settings := modRecord_settings p _ s
@[simp] theorem dropReception_settings : (dropReception p s).settings = s.settings :=
  modRecord_settings p _ s

@[simp] theorem answerAddress_settings (a : Ack) : (answerAddress p a s).settings = s.settings := rfl
@[simp] theorem giveAck_settings (a : Ack) : (giveAck p a s).settings = s.settings := rfl
@[simp] theorem supply_settings (b : Byte) : (supply p b s).settings = s.settings := rfl
@[simp] theorem requestPin_settings : (requestPin p s).settings = s.settings := by simp [requestPin]
@[simp] theorem releasePin_settings : (releasePin p s).settings = s.settings := by rw [releasePin_eq]; rfl
@[simp] theorem releaseSegments_settings (byAbort : Bool) (keep : SegId → Bool) :
    (releaseSegments p byAbort keep s).settings = s.settings := rfl
@[simp] theorem releaseAll_settings (byAbort : Bool) : (releaseAll p byAbort s).settings = s.settings := rfl
@[simp] theorem grant_settings (g : SegSet) : (grant p g s).settings = s.settings := rfl
@[simp] theorem examine_settings : (examine s).settings = s.settings :=
  settings_eq_of_mgmt (examine_unexamined s).mgmt
@[simp] theorem withdraw_settings : (withdraw p s).settings = s.settings :=
  settings_eq_of_mgmt (withdraw_unexamined p s).mgmt
@[simp] theorem refuse_settings (k : EventKind) (g : Option SegId) (log : Bool) :
    (refuse p k g log s).settings = s.settings := by
  simp only [refuse, countDenial]; split <;> simp

theorem foldl_settings {α : Type} (f : State → α → State) (hf : ∀ s x, (f s x).settings = s.settings)
    (l : List α) (s : State) : (l.foldl f s).settings = s.settings := by
  induction l generalizing s with
  | nil => rfl
  | cons x l ih => exact (ih _).trans (hf s x)

@[simp] theorem isolateRequest_settings (r : Request) : (isolateRequest n r s).settings = s.settings := by
  simp [isolateRequest]
@[simp] theorem arbiterIsolation_settings : (arbiterIsolation n s).settings = s.settings := by
  simp [arbiterIsolation, foldl_settings]
@[simp] theorem abortHold_settings : (abortHold p s).settings = s.settings := by rw [abortHold_eq]; rfl
@[simp] theorem abort_settings (r : AbortReason) : (abort p r s).settings = s.settings := by simp [abort]

@[simp] theorem enterIdle_settings : (enterIdle n s).settings = s.settings := by simp [enterIdle]
@[simp] theorem enterIsolated_settings (q : Option Port) (d : Byte) :
    (enterIsolated n q d s).settings = s.settings := by simp [enterIsolated]
@[simp] theorem enterRecovering_settings (q : Option Port) : (enterRecovering n q s).settings = s.settings := rfl
@[simp] theorem finishIsolation_settings (i : IsolationPending) :
    (finishIsolation n i s).settings = s.settings := by simp [finishIsolation]
@[simp] theorem faultTransition_settings (q : Option Port) : (faultTransition n q s).settings = s.settings := by
  simp [faultTransition]
@[simp] theorem closingFault_settings (c : ClosingRec) : (closingFault n c s).settings = s.settings := by
  unfold closingFault; split <;> simp
@[simp] theorem closingToUnsynced_settings (c : ClosingRec) (high : Bool) :
    (closingToUnsynced n c high s).settings = s.settings := by unfold closingToUnsynced; split <;> simp

end shared

/-! ### The forwarding path (chapter 6) -/

section forwarding

variable (p : Port) (s : State)

@[simp] theorem formAddressOutcome_settings : (formAddressOutcome p s).settings = s.settings := by
  simp [formAddressOutcome, addressAccepted, addressRefused]
@[simp] theorem addressReport_settings (n : SegId) (r : AddrReport) :
    (addressReport p n r s).settings = s.settings := by simp [addressReport, raiseExhausted]
@[simp] theorem countByte_settings : (countByte p s).settings = s.settings := rfl
@[simp] theorem writeForwarding_settings (b : Byte) : (writeForwarding p b s).settings = s.settings := by
  simp [writeForwarding, limitWrite, forwardWrite]
@[simp] theorem formWriteAcknowledge_settings : (formWriteAcknowledge p s).settings = s.settings := by
  simp [formWriteAcknowledge]
@[simp] theorem beginRead_settings : (beginRead p s).settings = s.settings := rfl
@[simp] theorem readForwarding_settings : (readForwarding p s).settings = s.settings := by
  simp [readForwarding]
@[simp] theorem endRead_settings : (endRead p s).settings = s.settings := rfl
@[simp] theorem presentRead_settings (b : Byte) : (presentRead p b s).settings = s.settings := by
  simp only [presentRead]; split <;> simp
@[simp] theorem mirrorAcknowledge_settings (a : Ack) : (mirrorAcknowledge p a s).settings = s.settings := by
  cases a <;> simp [mirrorAcknowledge]

end forwarding

/-! ### The segment controllers (chapter 7) -/

section segments

variable (n : SegId) (s : State)

@[simp] theorem countFault_settings : (countFault n s).settings = s.settings := rfl
@[simp] theorem countDeparture_settings : (countDeparture n s).settings = s.settings := rfl
@[simp] theorem countLoss_settings : (countLoss n s).settings = s.settings := rfl
@[simp] theorem measure_settings (f : LineMeasure → LineMeasure) : (measure n f s).settings = s.settings := rfl
@[simp] theorem stuckMeasured_settings (l : Line) : (stuckMeasured n l s).settings = s.settings := rfl
@[simp] theorem conditionSeen_settings : (conditionSeen n s).settings = s.settings := rfl
@[simp] theorem loseAddress_settings (h : HeldRec) : (loseAddress n h s).settings = s.settings := by
  simp [loseAddress]
@[simp] theorem loseData_settings (h : HeldRec) : (loseData n h s).settings = s.settings := by simp [loseData]
@[simp] theorem heldBusError_settings (h : HeldRec) (stop : Bool) :
    (heldBusError n h stop s).settings = s.settings := by simp [heldBusError]
@[simp] theorem heldForeignStart_settings (h : HeldRec) : (heldForeignStart n h s).settings = s.settings := by
  simp [heldForeignStart]
@[simp] theorem closingBusError_settings (c : ClosingRec) (stop : Bool) :
    (closingBusError n c stop s).settings = s.settings := by simp [closingBusError]
@[simp] theorem recoveryToForeign_settings (r : RecoveringRec) :
    (recoveryToForeign n r s).settings = s.settings := by unfold recoveryToForeign; split <;> simp
@[simp] theorem recoverySucceeds_settings (r : RecoveringRec) (k : Nat) :
    (recoverySucceeds n r k s).settings = s.settings := by unfold recoverySucceeds; split <;> simp
@[simp] theorem recoveryFails_settings (r : RecoveringRec) : (recoveryFails n r s).settings = s.settings := by
  unfold recoveryFails; split <;> simp
@[simp] theorem endAttempt_settings (r : AttemptResult) : (endAttempt n r s).settings = s.settings := by
  unfold endAttempt; (repeat' split) <;> simp

end segments

/-! ### The table controller (chapter 3) -/

section table

variable (p : Port) (s : State)

@[simp] theorem loadStaging_settings (f : Bank → Bank) : (loadStaging p f s).settings = s.settings := by
  simp [loadStaging]
@[simp] theorem forcedAborts_settings (g : BitVec 16) : (forcedAborts g s).settings = s.settings := by
  simp [forcedAborts]
@[simp] theorem takeCommit_settings (force : Bool) : (takeCommit p force s).settings = s.settings := by
  refine (respond_settings ..).trans ?_
  split
  · exact (forcedAborts_settings ..).trans (raise_settings ..)
  · rfl
@[simp] theorem endCopyBack_settings : (endCopyBack s).settings = s.settings := by
  simp only [endCopyBack]; split <;> simp

end table

/-! ### The upstream ports (chapters 1 and 4) -/

section upstream

variable (p : Port) (s : State)

@[simp] theorem raiseTransaction_settings : (raiseTransaction p s).settings = s.settings := by
  simp [raiseTransaction]
@[simp] theorem endPresented_settings : (endPresented p s).settings = s.settings := by simp [endPresented]
@[simp] theorem leaveForwarding_settings : (leaveForwarding p s).settings = s.settings := by
  simp [leaveForwarding]
@[simp] theorem writeManagement_settings (b : Byte) : (writeManagement p b s).settings = s.settings := by
  unfold writeManagement
  split
  · exact giveAck_settings ..
  · exact (giveAck_settings ..).trans (modRecord_settings p _ s)
@[simp] theorem readManagement_settings : (readManagement p s).settings = s.settings := by
  unfold readManagement
  split
  · exact (supply_settings ..).trans (modRecord_settings p _ s)
  · exact supply_settings ..

/-! ### The address decision (R66 to R72) -/

@[simp] theorem takeAddress_settings (a : Addr) (d : Direction) : (takeAddress p a d s).settings = s.settings := rfl
@[simp] theorem decideManagement_settings (d : Direction) : (decideManagement p d s).settings = s.settings := by
  refine (answerAddress_settings ..).trans ?_
  cases d with
  | write => exact (modRecord_settings p _ _).trans (leaveForwarding_settings p s)
  | read => exact (modRecord_settings p _ _).trans (leaveForwarding_settings p s)
@[simp] theorem leaveManagement_settings : (leaveManagement p s).settings = s.settings :=
  modRecord_settings p _ s
@[simp] theorem request_settings (g : SegSet) (h : IsolationHandling) : (request p g h s).settings = s.settings := by
  simp [request, foldl_settings]
@[simp] theorem keepSegments_settings (g : SegSet) : (keepSegments p g s).settings = s.settings := rfl
@[simp] theorem placeClaim_settings (c : Claim) (g : SegSet) : (placeClaim p c g s).settings = s.settings := by
  simp [placeClaim]
@[simp] theorem decideForward_settings (a : Addr) (d : Direction) (c : Bool) (e : RouteEntry) (g : SegSet)
    (t : Addr) (i : ProfileId) (f : Profile) : (decideForward p a d c e g t i f s).settings = s.settings := by
  cases h : claimSet s g (routeAggregation g f) <;> simp [decideForward, h]
@[simp] theorem decideRoute_settings (a : Addr) (d : Direction) : (decideRoute p a d s).settings = s.settings := by
  simp only [decideRoute, countHit]
  split
  · simp [decideNoMatch]
  · split <;> simp

end upstream

end Sys2Proof.Machine
end

section
/-! PROOFS. One port keeps full rights, and every setting stays in its range: the commands that write a setting check
it, and a port without full rights revokes nothing. -/

namespace Sys2Proof.Machine

-- One thread at a time elaborates this part: the compile stays within the check's memory.
set_option Elab.async false

/-! ### Changes of a setting within the invariant -/

section managementOk

variable {s t : State} (h : ManagementOk s)
include h

theorem ManagementOk.of_settings (ht : t.settings = s.settings) : ManagementOk t := by
  rw [managementOk_iff] at *
  rwa [ht]

/-- The settings of one port change within their ranges, and a port with full rights is left. -/
theorem ManagementOk.record (p : Port) (f : MgmtRecord → MgmtRecord)
    (rights : (f (s.record p)).rights = .full ∨ (f (s.record p)).rights = (s.record p).rights ∨
      FullRights s (otherPort p))
    (range : (f (s.record p)).settings.InRange) : ManagementOk (modRecord p f s) := by
  obtain ⟨⟨q, full⟩, inRange⟩ := (managementOk_iff s).mp h
  have same : (modRecord p f s).settings p = (f (s.record p)).settings :=
    congrArg _ (modRecord_record_same p f s)
  have other : ∀ k, k ≠ p → (modRecord p f s).settings k = s.settings k := fun k hk => by
    rw [State.settings, modRecord_record, if_neg hk, State.settings]
  refine (managementOk_iff _).mpr ⟨?_, fun k => ?_⟩
  · rcases rights with granted | kept | left
    · exact ⟨p, by rw [same]; exact granted⟩
    · by_cases hq : q = p
      · exact ⟨p, by rw [same]; exact kept.trans (hq ▸ full)⟩
      · exact ⟨q, by rw [other q hq]; exact full⟩
    · exact ⟨otherPort p, by rw [other _ (otherPort_ne p)]; exact left⟩
  · by_cases hk : k = p
    · rw [hk, same]; exact range
    · rw [other k hk]; exact inRange k

theorem ManagementOk.inRange (p : Port) : (s.settings p).InRange := ((managementOk_iff s).mp h).2 p

/-- A start brings the stored management address, which is in its range, into effect (R147). -/
theorem ManagementOk.openTransaction (p : Port) : ManagementOk (openTransaction p s) := by
  obtain ⟨stored, -, wait, idle⟩ := h.inRange p
  exact (h.of_settings (t := modEngine ..) rfl).record p _ (.inr (.inl rfl)) ⟨stored, stored, wait, idle⟩

/-! ### The management commands -/

theorem ManagementOk.respond (p : Port) (x : Status) (d : List Byte) : ManagementOk (respond p x d s) :=
  h.of_settings (respond_settings ..)

/-- PORT CONFIGURE takes arguments in their ranges only (R159, R162). -/
theorem ManagementOk.opPortConfigure (p : Port) (port addr wait idle : Byte) (mask : BitVec 32) :
    ManagementOk (opPortConfigure p port addr wait idle mask s) := by
  unfold Machine.opPortConfigure
  split
  · exact h.respond ..
  next q _ =>
    split
    next args =>
      obtain ⟨haddr, hwait, hidle⟩ := args
      obtain ⟨-, effective, -, -⟩ := h.inRange q
      have least : 1 ≤ addr.toNat ∧ addr.toNat ≤ 119 := by simpa [managementAddrArg] using haddr
      have stored : (addr.setWidth 7).toNat = addr.toNat := by
        rw [BitVec.toNat_setWidth]; omega
      have configured := h.record q (fun r => { r with
        storedAddr := addr.setWidth 7, waitLimit := wait, idleLimit := idle,
        alertMask := mask &&& Config.alertMaskBits }) (.inr (.inl rfl))
        ⟨by rwa [← stored] at least, effective, hwait, hidle⟩
      exact configured.of_settings ((respond_settings ..).trans (evalAlert_settings ..))
    · exact h.respond ..

/-- The rights commands act on the other port (R158): a revoke leaves those of the issuing port. -/
theorem ManagementOk.opRightsGrant (p : Port) : ManagementOk (opRightsGrant p s) :=
  (h.record (otherPort p) (fun r => { r with rights := .full }) (.inl rfl) (h.inRange (otherPort p))).respond ..

theorem ManagementOk.opRightsRevoke (p : Port) (full : FullRights s p) : ManagementOk (opRightsRevoke p s) :=
  (h.record (otherPort p) (fun r => { r with rights := .readOnly })
    (.inr (.inr (by rwa [otherPort_otherPort]))) (h.inRange (otherPort p))).respond ..

end managementOk

/-! ### The commands that change no setting -/

section unchanged

variable (p : Port) (s : State)

@[simp] theorem opPortStatus_settings (q : Byte) : (opPortStatus p q s).settings = s.settings := by
  unfold opPortStatus; split <;> simp
@[simp] theorem opRouteLoad_settings (i c m k g t f : Byte) :
    (opRouteLoad p i c m k g t f s).settings = s.settings := by unfold opRouteLoad; split <;> simp
@[simp] theorem opRouteRead_settings (r i : Byte) : (opRouteRead p r i s).settings = s.settings := by
  unfold opRouteRead; (repeat' split) <;> simp
@[simp] theorem opPolicyLoad_settings (i f w r c a d b : Byte) :
    (opPolicyLoad p i f w r c a d b s).settings = s.settings := by unfold opPolicyLoad; split <;> simp
@[simp] theorem opPolicyRead_settings (r i : Byte) : (opPolicyRead p r i s).settings = s.settings := by
  unfold opPolicyRead; (repeat' split) <;> simp
@[simp] theorem opTableCommit_settings (e : BitVec 16) (f : Byte) :
    (opTableCommit p e f s).settings = s.settings := by unfold opTableCommit; (repeat' split) <;> simp
@[simp] theorem opTableDiscard_settings : (opTableDiscard p s).settings = s.settings := by simp [opTableDiscard]
@[simp] theorem opCounterRead_settings (i : Byte) : (opCounterRead p i s).settings = s.settings := by
  unfold opCounterRead; split <;> simp
@[simp] theorem opSegmentStatus_settings (n : Byte) : (opSegmentStatus p n s).settings = s.settings := by
  unfold opSegmentStatus; split <;> simp
@[simp] theorem opSegmentConfigure_settings (n v q t r a : Byte) :
    (opSegmentConfigure p n v q t r a s).settings = s.settings := by unfold opSegmentConfigure; split <;> simp
@[simp] theorem opSegmentRestore_settings (n : Byte) : (opSegmentRestore p n s).settings = s.settings := by
  unfold opSegmentRestore; split <;> simp
@[simp] theorem opSegmentRecover_settings (n : Byte) : (opSegmentRecover p n s).settings = s.settings := by
  unfold opSegmentRecover; (repeat' split) <;> simp
@[simp] theorem opLogPeek_settings : (opLogPeek p s).settings = s.settings := by
  unfold opLogPeek; split <;> simp
@[simp] theorem opLogPop_settings : (opLogPop p s).settings = s.settings := by
  refine Eq.trans ?_ (opLogPeek_settings p s)
  unfold opLogPop
  dsimp only
  split <;> rfl

end unchanged

/-- SEGMENT ISOLATE changes no setting, whatever the state of the segment (R141). -/
@[simp] theorem opSegmentIsolate_settings (p : Port) (n : Byte) (s : State) :
    (opSegmentIsolate p n s).settings = s.settings := by
  unfold opSegmentIsolate
  split
  · simp
  · split
    case h_4 r _ => cases r.requestedBy <;> simp
    case h_5 h _ => simp only [isolateHeld]; split <;> simp
    case h_6 c _ => split <;> simp
    all_goals simp

theorem resetContext_settings (p : Port) (issuing : Bool) (s : State) :
    (resetContext p issuing s).settings = s.settings := by
  refine (modRecord_settings p _ _).trans ?_
  simp [abortForReset]

/-- CONTEXT RESET keeps the rights and the settings (R170). -/
theorem opContextReset_settings (p : Port) (s : State) : (opContextReset p s).settings = s.settings := by
  refine (respond_settings ..).trans ((respondFinal_settings ..).trans ?_)
  exact (resetContext_settings ..).trans (resetContext_settings ..)

/-- A command that needs no rights answers, and changes no setting but those PORT CONFIGURE checks (R157). -/
theorem ManagementOk.runCommand_unrestricted {s : State} (h : ManagementOk s) (p : Port) (o : MgmtOp)
    (args : List Byte) (hn : needsFull o p args = false) : ManagementOk (runCommand p o args s) := by
  cases o
  case identify => rcases args with _ | _; exacts [h.respond .., h]
  case portStatus =>
    rcases args with _ | ⟨_, _ | _⟩
    exacts [h, h.of_settings (opPortStatus_settings ..), h]
  case portConfigure =>
    rcases args with _ | ⟨_, _ | ⟨_, _ | ⟨_, _ | ⟨_, _ | ⟨_, _ | ⟨_, _ | ⟨_, _ | ⟨_, _ | _⟩⟩⟩⟩⟩⟩⟩⟩
    case cons.cons.cons.cons.cons.cons.cons.cons.nil => exact h.opPortConfigure ..
    all_goals exact h
  case routeRead =>
    rcases args with _ | ⟨_, _ | ⟨_, _ | _⟩⟩
    exacts [h, h, h.of_settings (opRouteRead_settings ..), h]
  case policyRead =>
    rcases args with _ | ⟨_, _ | ⟨_, _ | _⟩⟩
    exacts [h, h, h.of_settings (opPolicyRead_settings ..), h]
  case tableStatus => rcases args with _ | _; exacts [h.respond .., h]
  case counterRead =>
    rcases args with _ | ⟨_, _ | _⟩
    exacts [h, h.of_settings (opCounterRead_settings ..), h]
  case segmentStatus =>
    rcases args with _ | ⟨_, _ | _⟩
    exacts [h, h.of_settings (opSegmentStatus_settings ..), h]
  case logPeek => rcases args with _ | _; exacts [h.of_settings (opLogPeek_settings ..), h]
  all_goals cases hn

/-- On a port with full rights every executed command keeps the invariant, a revoke too (R157, R158). -/
theorem ManagementOk.runCommand_full {s : State} (h : ManagementOk s) (p : Port) (o : MgmtOp)
    (args : List Byte) (full : FullRights s p) : ManagementOk (runCommand p o args s) := by
  apply runCommand_induction (P := ManagementOk)
  case unchanged => exact h
  case identify | tableStatus => exact h.respond ..
  case portConfigure => exact h.opPortConfigure p
  case rightsGrant => exact h.opRightsGrant p
  case rightsRevoke => exact h.opRightsRevoke p full
  case contextReset => exact h.of_settings (opContextReset_settings p s)
  all_goals intros; exact h.of_settings (by simp)

theorem ManagementOk.executeCommand {s : State} (h : ManagementOk s) (p : Port) (o : MgmtOp)
    (args : List Byte) : ManagementOk (executeCommand p o args s) := by
  unfold Machine.executeCommand
  split
  · exact h.respond ..
  next allowed =>
    cases full : (s.record p).rights with
    | full => exact h.runCommand_full p o args full
    | readOnly => exact h.runCommand_unrestricted p o args (by simpa [full] using allowed)

/-! ### The hand-over of a management write (R148, R150) -/

theorem ManagementOk.examineReception {s : State} (h : ManagementOk s) (p : Port) (r : Reception) :
    ManagementOk (examineReception p r s) := by
  unfold Machine.examineReception
  split
  · exact h
  split
  · exact h.respond ..
  unfold examineBytes
  dsimp only
  split
  · exact (h.of_settings (raise_settings ..)).respond ..
  split
  · exact h.respond ..
  split
  · exact h.respond ..
  · exact h.executeCommand ..

theorem ManagementOk.dropReception {s : State} (h : ManagementOk s) (p : Port) :
    ManagementOk (dropReception p s) := h.of_settings (dropReception_settings p s)

theorem ManagementOk.handOver {s : State} (h : ManagementOk s) (p : Port) : ManagementOk (handOver p s) := by
  unfold Machine.handOver
  split
  · exact h
  · exact (h.examineReception ..).dropReception p

/-- A boundary hands a management write over, or ends a phase (R64). -/
theorem ManagementOk.closePhase {s : State} (h : ManagementOk s) (p : Port) : ManagementOk (closePhase p s) := by
  unfold Machine.closePhase
  split
  case h_1 => exact h.handOver p
  all_goals exact h.of_settings (by simp)

theorem ManagementOk.closeTransaction {s : State} (h : ManagementOk s) (p : Port) :
    ManagementOk (closeTransaction p s) := by
  unfold Machine.closeTransaction
  split
  case h_1 => exact h.handOver p
  all_goals exact h.of_settings (by simp)

/-! ### Every command -/

/-- Whatever next state the outcome has, the invariant holds in it. -/
def Managed (o : Host.Outcome State Fault Refusal) : Prop := ∀ t, o = .next t → ManagementOk t

section exec

variable {s : State} (h : ManagementOk s)
include h

theorem managed_act {f : State → State} (hf : ManagementOk (f s)) : Managed (act f s) := by
  rintro t ⟨⟩
  split
  · exact h
  · exact hf

theorem managed_act_of_settings {f : State → State} (hf : (f s).settings = s.settings) : Managed (act f s) :=
  managed_act h (h.of_settings hf)

theorem managed_reported {p : Port} {f : State → State} (hf : ManagementOk (f s)) :
    Managed (act (reported p f) s) := by
  refine managed_act h ?_
  unfold reported
  split
  · exact hf
  · exact h

theorem managed_upstreamStart (p : Port) : Managed (act (upstreamStart p) s) := by
  refine managed_act h ?_
  unfold upstreamStart
  split
  · exact h.openTransaction p
  unfold repeatTransaction reported
  split
  · exact (((h.of_settings (endPresented_settings p s)).closePhase p).of_settings (by simp))
  · exact h

theorem managed_stop (p : Port) : Managed (execStop p s) := by
  have closed := (h.of_settings (endPresented_settings p s)).closeTransaction p
  have idle : ManagementOk (modContext p (fun _ => Context.idle) (closeTransaction p (endPresented p s))) :=
    closed.of_settings rfl
  have dropped := idle.of_settings (modRecord_settings p (fun r => { r with reception := none, readCopy := none }) _)
  exact managed_reported h (dropped.of_settings rfl)

theorem managed_managementWrite (p : Port) (bytes : List Byte) : Managed (execManagementWrite p bytes s) :=
  managed_act h ((h.examineReception ..).dropReception p)

theorem managed_command (p : Port) (o : MgmtOp) (args : List Byte) : Managed (command p o args s) := by
  refine managed_act h ?_
  split
  · exact h
  · exact (h.executeCommand ..).dropReception p

theorem managed_timestampTick : Managed (execTimestampTick s) := managed_act_of_settings h rfl

/-! ### Happenings on a segment -/

section segments

variable (n : SegId)

theorem managed_deferredQuietObserved : Managed (execDeferredQuietObserved n s) :=
  managed_act_of_settings h (by split <;> simp)

theorem managed_writeAcknowledge (a : Ack) : Managed (execWriteAcknowledge n a s) :=
  managed_act_of_settings h (by split <;> simp)

theorem managed_readByteReceived (b : Byte) : Managed (execReadByteReceived n b s) :=
  managed_act_of_settings h (by split <;> simp)

theorem managed_acknowledgeSlotDone : Managed (execAcknowledgeSlotDone n s) :=
  managed_act_of_settings h (by split <;> simp)

theorem managed_stretchBudget : Managed (execStretchBudget n s) :=
  managed_act_of_settings h (by split <;> simp)

theorem managed_arbitrationLoss (point : LossPoint) : Managed (execArbitrationLoss n point s) :=
  managed_act_of_settings h (by cases point <;> split <;> simp)

theorem managed_segmentStartSeen : Managed (execSegmentStartSeen n s) :=
  managed_act_of_settings h (by split <;> simp)

theorem managed_segmentStopSeen : Managed (execSegmentStopSeen n s) :=
  managed_act_of_settings h (by split <;> simp)

theorem managed_stretchFault : Managed (execStretchFault n s) :=
  managed_act_of_settings h (by split <;> simp)

theorem managed_stuckLineFault (l : Line) : Managed (execStuckLineFault n l s) :=
  managed_act_of_settings h (by split <;> simp)

theorem managed_closingStopDriven : Managed (execClosingStopDriven n s) := by
  refine managed_act_of_settings h ?_
  split
  next c _ => cases c.isolation <;> simp
  · rfl

theorem managed_recoveryWaitEnd : Managed (execRecoveryWaitEnd n s) :=
  managed_act_of_settings h (by split <;> simp)

theorem managed_recoveryAttemptEnd (r : AttemptResult) : Managed (execRecoveryAttemptEnd n r s) := by
  cases r with
  | failure => exact managed_act_of_settings h (endAttempt_settings n s .failure)
  | success pulses =>
    unfold execRecoveryAttemptEnd
    dsimp only
    split
    · exact managed_act_of_settings h (endAttempt_settings n s (.success pulses))
    · rintro t ⟨⟩

end segments

/-- Every command keeps the invariant. -/
theorem managed_exec (c : Instr) : Managed (exec c s) := by
  cases c
  case powerOn high | rstAssert high =>
    rintro t ⟨⟩
    exact managementOk_atReset high
  case resetEnd =>
    rintro t ⟨⟩
    split
    · exact h.of_settings rfl
    · exact h
  case start p | repeatedStart p => exact managed_upstreamStart h p
  case stop p => exact managed_stop h p
  case managementWrite p bytes => exact managed_managementWrite h p bytes
  case address | controllerAcknowledge | byteComplete | busError =>
    exact managed_reported h (h.of_settings (by simp))
  case writeByte p b => exact managed_reported h (h.of_settings (by cases (s.context p).state <;> simp))
  case readByteWanted p => exact managed_reported h (h.of_settings (by cases (s.context p).state <;> simp))
  case addressWaitLimit | idleLimit | refillTimer | quietIntervalObserved | addressOutcome
    | lineLowWithoutStart | copyBackEnd => exact managed_act_of_settings h (by simp)
  case timestampTick => exact managed_timestampTick h
  case deferredQuietObserved n => exact managed_deferredQuietObserved h n
  case writeAcknowledge n a => exact managed_writeAcknowledge h n a
  case readByteReceived n b => exact managed_readByteReceived h n b
  case acknowledgeSlotDone n => exact managed_acknowledgeSlotDone h n
  case stretchBudget n => exact managed_stretchBudget h n
  case arbitrationLoss n point => exact managed_arbitrationLoss h n point
  case segmentStartSeen n => exact managed_segmentStartSeen h n
  case segmentStopSeen n => exact managed_segmentStopSeen h n
  case stretchFault n => exact managed_stretchFault h n
  case stuckLineFault n l => exact managed_stuckLineFault h n l
  case closingStopDriven n => exact managed_closingStopDriven h n
  case recoveryWaitEnd n => exact managed_recoveryWaitEnd h n
  case recoveryAttemptEnd n r => exact managed_recoveryAttemptEnd h n r
  all_goals exact managed_command h _ _ _

end exec

/-- Settles O55: a step leaves the state, or runs a command, which keeps the invariant. -/
theorem rightsAndSettingsKept : Obligations.RightsAndSettingsKept := by
  unfold Obligations.RightsAndSettingsKept
  intro s t h hstep
  unfold step at hstep
  split at hstep
  · cases hstep
    exact h
  next c rest _ => exact managed_exec (h.of_settings (t := { s with pending := rest }) rfl) c t hstep

end Sys2Proof.Machine
end

section
/-! PROOFS. Management writes: what is received, the check byte, the order of the checks, and the rows as frames. -/

namespace Sys2Proof.Machine

-- One thread at a time elaborates this part: the compile stays within the check's memory.
set_option Elab.async false

/-! ### The reception of a whole write (R148) -/

/-- After a refused first byte every byte is refused. -/
theorem foldl_receiveByte_refused (pending : Bool) (bytes : List Byte) (r : Reception) (hc : 0 < r.count)
    (hr : r.refused = true) : (bytes.foldl (fun r b => (receiveByte pending b r).1) r).refused = true := by
  induction bytes generalizing r with
  | nil => exact hr
  | cons b bytes ih =>
    rw [List.foldl_cons, receiveByte_refused b r pending hc hr]
    exact ih _ (by simp) hr

/-- On a PENDING port a write is refused at its first byte. -/
theorem receiveAll_pending (b : Byte) (bytes : List Byte) : (receiveAll true (b :: bytes)).refused = true := by
  rw [receiveAll, List.foldl_cons, receiveByte_first_pending b _ rfl]
  exact foldl_receiveByte_refused true bytes _ Nat.one_pos rfl

/-- After the 18th byte every byte is counted, up to 255, and none is kept. -/
theorem foldl_receiveByte_over (bytes : List Byte) (r : Reception) (hf : r.refused = false) (hc : 18 ≤ r.count)
    (hm : r.count ≤ 255) :
    bytes.foldl (fun r b => (receiveByte false b r).1) r =
      { r with count := min (r.count + bytes.length) 255 } := by
  induction bytes generalizing r with
  | nil => rw [List.foldl_nil, List.length_nil, Nat.add_zero, Nat.min_eq_left hm]
  | cons b bytes ih =>
    have count : min (min (r.count + 1) 255 + bytes.length) 255 = min (r.count + (b :: bytes).length) 255 := by
      rw [List.length_cons]; omega
    rw [List.foldl_cons, receiveByte_over b r false hc hf, ih { r with count := min (r.count + 1) 255 } hf
      (by simp only; omega) (by simp only; omega), count]

/-- A write of 19 bytes and more is kept to its first 18 bytes, on a port that is not PENDING. -/
theorem receiveAll_over (bytes : List Byte) (h : 19 ≤ bytes.length) :
    receiveAll false bytes = ⟨bytes.take 18, min bytes.length 255, false⟩ := by
  have kept : (bytes.take 18).length = 18 := by rw [List.length_take]; omega
  have count : 18 + (bytes.drop 18).length = bytes.length := by rw [List.length_drop]; omega
  have first : (bytes.take 18).foldl (fun r b => (receiveByte false b r).1) Reception.empty =
      ⟨bytes.take 18, 18, false⟩ := (receiveAll_kept (bytes.take 18) (by omega)).trans (by rw [kept])
  calc receiveAll false bytes
      = (bytes.take 18 ++ bytes.drop 18).foldl (fun r b => (receiveByte false b r).1) Reception.empty := by
        rw [List.take_append_drop]; rfl
    _ = ⟨bytes.take 18, min (18 + (bytes.drop 18).length) 255, false⟩ := by
        rw [List.foldl_append, first, foldl_receiveByte_over _ _ rfl (by simp) (by simp)]
    _ = _ := by rw [count]

/-! ### The check byte (R149) -/

/-- The check register is 0 once it has taken in its own value. -/
theorem crcByte_self (r : Byte) : crcByte r r = 0 := by
  rw [crcByte, BitVec.xor_self]
  rfl

/-- One shift, by the value of the register. -/
theorem crcShift_eq (r : Byte) : crcShift r = if 128 ≤ r.toNat then (r <<< 1) ^^^ 0x1D else r <<< 1 := by
  simp [crcShift, BitVec.msb_eq_decide]

/-- Settles O15: the check byte is the register that takes it in. -/
theorem checkByteClosesFrames : Obligations.CheckByteClosesFrames := by
  unfold Obligations.CheckByteClosesFrames
  refine ⟨fun bytes => ?_, ?_, ?_, ?_⟩
  · rw [checkByte, frameOf, List.foldl_append]
    exact crcByte_self _
  all_goals simp [checkByte, crcByte, crcShift_eq]

/-! ### The checks of a write of 2 to 18 bytes, in their order (R150) -/

section examineBytes

variable {p : Port} {bytes : List Byte} {s : State}

theorem examineBytes_checkError (h : bytes.getLast? ≠ some (checkByte bytes.dropLast)) :
    examineBytes p bytes s =
      respond p .checkError [] (raise ⟨.mgmtCheckError, some p, none, none, none, bytes.headD 0⟩ s) := by
  rw [examineBytes, if_pos h]
  rfl

theorem examineBytes_unknown (hk : bytes.getLast? = some (checkByte bytes.dropLast))
    (ho : opOfCode (bytes.headD 0) = none) : examineBytes p bytes s = respond p .unknownCommand [] s := by
  simp only [examineBytes, hk, ho, ne_eq, not_true_eq_false, if_false]

theorem examineBytes_known {o : MgmtOp} (hk : bytes.getLast? = some (checkByte bytes.dropLast))
    (ho : opOfCode (bytes.headD 0) = some o) :
    examineBytes p bytes s =
      if bytes.dropLast.tail.length ≠ argCount o then respond p .lengthError [] s
      else executeCommand p o bytes.dropLast.tail s := by
  simp only [examineBytes, hk, ho, ne_eq, not_true_eq_false, if_false]

end examineBytes

/-- A write of 2 to 18 bytes that is kept is examined (R150). -/
theorem examineReception_within (p : Port) (bytes : List Byte) (s : State) (least : 2 ≤ bytes.length)
    (most : bytes.length ≤ 18) : examineReception p ⟨bytes, bytes.length, false⟩ s = examineBytes p bytes s := by
  rw [examineReception, if_neg (by simp only [Bool.false_eq_true, false_or]; omega),
    if_neg (by simp only; omega)]

theorem dropReception_executeCommand (p : Port) (o : MgmtOp) (args : List Byte) (s : State) :
    dropReception p (executeCommand p o args s) =
      if needsFull o p args ∧ (s.record p).rights = .readOnly then answered p .deniedRights [] s
      else dropReception p (runCommand p o args s) := by
  unfold executeCommand
  split
  · exact dropReception_respond ..
  · rfl

/-- Settles O12: the reception tells whether a write is examined, and the first failing check answers it. -/
theorem managementWriteChecked : Obligations.ManagementWriteChecked := by
  unfold Obligations.ManagementWriteChecked
  intro s p bytes hs r body
  show execManagementWrite p bytes s = _
  rw [execManagementWrite, act_next _ s hs]
  refine congrArg _ ?_
  split
  next discarded =>
    refine congrArg (dropReception p) (examineReception_discarded p _ s ?_)
    rcases bytes with _ | ⟨b, bytes⟩
    · exact .inr rfl
    · rw [discarded.resolve_right (List.cons_ne_nil b bytes)]
      exact .inl (receiveAll_pending b bytes)
  next taken =>
    obtain ⟨idle, nonempty⟩ := not_or.mp taken
    have positive : 0 < bytes.length := List.length_pos_of_ne_nil nonempty
    have free : (s.record p).command.isSome = false := Bool.eq_false_of_not_eq_true idle
    simp only [free]
    split
    next length =>
      refine (congrArg (dropReception p) ?_).trans (dropReception_respond p .lengthError [] s)
      rcases length with one | more
      · rw [receiveAll_kept bytes (by omega)]
        exact examineReception_length p _ s (by simp [one]) (.inl one)
      · rw [receiveAll_over bytes more]
        exact examineReception_length p _ s (by simp [nonempty]) (.inr (by simp only; omega))
    next within =>
      rw [receiveAll_kept bytes (by omega), examineReception_within p bytes s (by omega) (by omega)]
      split
      next wrong => rw [examineBytes_checkError wrong, dropReception_respond]
      next checked =>
        have closes := not_not.mp checked
        cases known : opOfCode (bytes.headD 0) with
        | none => rw [examineBytes_unknown closes known, dropReception_respond]
        | some o =>
          rw [examineBytes_known closes known]
          dsimp only
          split
          · exact dropReception_respond ..
          · exact dropReception_executeCommand ..

/-! ### The rows and their frames (R149, R185) -/

theorem opOfCode_opCode (o : MgmtOp) : opOfCode (opCode o) = some o := by cases o <;> rfl

theorem argCount_le (o : MgmtOp) : argCount o ≤ 8 := by cases o <;> decide

/-- On a port that takes it, a row is the management write of its frame. -/
theorem command_eq_frame (p : Port) (o : MgmtOp) (args : List Byte) (s : State) (ha : Accepts s p)
    (hl : args.length = argCount o) :
    command p o args s = exec (.managementWrite p (frameOf (opCode o :: args))) s := by
  have length : (frameOf (opCode o :: args)).length = argCount o + 2 := by simp [frameOf, hl]
  have most := argCount_le o
  have body : (frameOf (opCode o :: args)).dropLast = opCode o :: args := List.dropLast_concat
  have closes : (frameOf (opCode o :: args)).getLast? = some (checkByte (frameOf (opCode o :: args)).dropLast) := by
    rw [body]
    exact List.getLast?_concat
  have examined : examineBytes p (frameOf (opCode o :: args)) s = executeCommand p o args s := by
    rw [examineBytes_known closes (opOfCode_opCode o), body, List.tail_cons, if_neg (not_not.mpr hl)]
  calc command p o args s
      = .next (dropReception p (executeCommand p o args s)) := command_accepted p o args s ha
    _ = execManagementWrite p (frameOf (opCode o :: args)) s := by
        rw [execManagementWrite_kept p _ s ha (by omega), examineReception_within p _ s (by omega) (by omega),
          examined]

/-- Settles O14: each row carries as many arguments as its command takes. -/
theorem rowsAreTheirFrames : Obligations.RowsAreTheirFrames := by
  unfold Obligations.RowsAreTheirFrames
  intro s p hs hc
  have row := fun o args => command_eq_frame p o args s ⟨hs, hc⟩
  exact ⟨row .identify [] rfl, fun _ => row .portStatus _ rfl, fun _ _ _ _ _ => row .portConfigure _ rfl,
    row .rightsGrant [] rfl, row .rightsRevoke [] rfl, fun _ _ _ _ _ _ _ => row .routeLoad _ rfl,
    fun _ _ => row .routeRead _ rfl, fun _ _ _ _ _ _ _ _ => row .policyLoad _ rfl,
    fun _ _ => row .policyRead _ rfl, fun _ _ => row .tableCommit _ rfl, row .tableDiscard [] rfl,
    row .tableStatus [] rfl, fun _ => row .counterRead _ rfl, fun _ => row .segmentStatus _ rfl,
    fun _ _ _ _ _ _ => row .segmentConfigure _ rfl, fun _ => row .segmentIsolate _ rfl,
    fun _ => row .segmentRestore _ rfl, fun _ => row .segmentRecover _ rfl, row .logPeek [] rfl,
    row .logPop [] rfl, row .contextReset [] rfl⟩

end Sys2Proof.Machine
end

section
/-! PROOFS. Rights, arguments out of range, and the port, rights and log commands. -/

namespace Sys2Proof.Machine

-- One thread at a time elaborates this part: the compile stays within the check's memory.
set_option Elab.async false

/-! ### Bytes that show no port, number or truth value (R159, R184) -/

section arguments

variable {b : Byte}

theorem byte_ne_of_gt (n : Byte) (h : n.toNat < b.toNat) : b ≠ n := fun e => absurd (congrArg BitVec.toNat e) h.ne'

theorem portArg_of_gt (h : 1 < b.toNat) : portArg b = none := by
  rw [portArg, if_neg (byte_ne_of_gt 0 (by simp; omega)), if_neg (byte_ne_of_gt 1 h)]

theorem segArg_of_gt (h : 7 < b.toNat) : segArg b = none := by rw [segArg, dif_neg (by omega)]
theorem routeArg_of_gt (h : 63 < b.toNat) : routeArg b = none := by rw [routeArg, dif_neg (by omega)]
theorem profileArg_of_gt (h : 15 < b.toNat) : profileArg b = none := by rw [profileArg, dif_neg (by omega)]
theorem sevenBit_of_gt (h : 127 < b.toNat) : sevenBit b = false := by
  simpa [sevenBit, BitVec.msb_eq_decide] using Nat.succ_le_of_lt h
theorem speedOfByte_reserved (h : b &&& 3 = 3) : speedOfByte b = none := by rw [speedOfByte, h]; rfl
theorem managementAddrArg_out (h : b = 0 ∨ 119 < b.toNat) : managementAddrArg b = false := by
  rcases h with rfl | h
  · rfl
  · simp only [managementAddrArg, Bool.and_eq_false_iff, decide_eq_false_iff_not]
    exact .inr (by omega)

end arguments

theorem portArg_portCode (q : Port) : portArg (portCode q) = some q := by cases q <;> rfl

/-! ### A row answered by its first check (R150, R157, R159) -/

theorem command_denied (p : Port) (o : MgmtOp) (args : List Byte) (s : State) (ha : Accepts s p)
    (hr : (s.record p).rights = .readOnly) (h : needsFull o p args = true) :
    command p o args s = .next (answered p .deniedRights [] s) := by
  rw [command_accepted p o args s ha, executeCommand_denied p o args s h hr, dropReception_respond]

theorem command_unrestricted_answer {p : Port} {o : MgmtOp} {args : List Byte} {s : State} {x : Status}
    {d : List Byte} (ha : Accepts s p) (hn : needsFull o p args = false)
    (h : runCommand p o args s = respond p x d s) : command p o args s = .next (answered p x d s) := by
  rw [command_unrestricted p o args s ha hn, h, dropReception_respond]

theorem command_full_answer {p : Port} {o : MgmtOp} {args : List Byte} {s : State} {x : Status}
    {d : List Byte} (ha : Accepts s p) (hf : FullRights s p)
    (h : runCommand p o args s = respond p x d s) : command p o args s = .next (answered p x d s) := by
  rw [command_full p o args s ha hf, h, dropReception_respond]

/-- PORT CONFIGURE of the issuing port needs no rights (R157). -/
theorem needsFull_ownPort (p : Port) (args : List Byte) :
    needsFull .portConfigure p (portCode p :: args) = false := by simp [needsFull]

theorem needsFull_otherPort {p : Port} {q : Byte} (args : List Byte) (h : q ≠ portCode p) :
    needsFull .portConfigure p (q :: args) = true := by simpa [needsFull] using h

/-- Settles O19: the rights are checked before the command is executed. -/
theorem readOnlyPortIsDenied : Obligations.ReadOnlyPortIsDenied := by
  unfold Obligations.ReadOnlyPortIsDenied
  intro s p ha hr denied
  have deny := fun o args h => command_denied p o args s ha hr h
  refine ⟨deny .rightsGrant _ rfl, deny .rightsRevoke _ rfl, fun q _ _ _ _ hq => ?_,
    fun _ _ _ _ _ _ _ => deny .routeLoad _ rfl, fun _ _ _ _ _ _ _ _ => deny .policyLoad _ rfl,
    fun _ _ => deny .tableCommit _ rfl, deny .tableDiscard _ rfl,
    fun _ _ _ _ _ _ => deny .segmentConfigure _ rfl, fun _ => deny .segmentIsolate _ rfl,
    fun _ => deny .segmentRestore _ rfl, fun _ => deny .segmentRecover _ rfl, deny .logPop _ rfl,
    deny .contextReset _ rfl⟩
  exact deny .portConfigure _ (needsFull_otherPort _ hq)

/-! ### Arguments out of range (R159) -/

section badArgument

variable (p : Port) (s : State)

theorem opPortStatus_badArgument {q : Byte} (h : 1 < q.toNat) : opPortStatus p q s = respond p .badArgument [] s := by
  rw [opPortStatus, portArg_of_gt h]

theorem opPortConfigure_badArgument {q a w i : Byte} (m : BitVec 32)
    (h : 1 < q.toNat ∨ a = 0 ∨ 119 < a.toNat ∨ w = 0 ∨ i = 0) :
    opPortConfigure p q a w i m s = respond p .badArgument [] s := by
  unfold opPortConfigure
  split
  · rfl
  next named =>
    refine if_neg ?_
    rintro ⟨haddr, hwait, hidle⟩
    rcases h with hq | h0 | h119 | hw | hi
    · rw [portArg_of_gt hq] at named; cases named
    · rw [managementAddrArg_out (.inl h0)] at haddr; cases haddr
    · rw [managementAddrArg_out (.inr h119)] at haddr; cases haddr
    · exact hwait hw
    · exact hidle hi

theorem opRouteRead_badArgument {r i : Byte} (h : 1 < r.toNat ∨ 63 < i.toNat) :
    opRouteRead p r i s = respond p .badArgument [] s := by
  unfold opRouteRead
  split
  next role index =>
    rcases h with h | h
    · rw [stagingArg, boolArg_of_gt h] at role; cases role
    · rw [routeArg_of_gt h] at index; cases index
  · rfl

theorem opPolicyRead_badArgument {r i : Byte} (h : 1 < r.toNat ∨ 15 < i.toNat) :
    opPolicyRead p r i s = respond p .badArgument [] s := by
  unfold opPolicyRead
  split
  next role index =>
    rcases h with h | h
    · rw [stagingArg, boolArg_of_gt h] at role; cases role
    · rw [profileArg_of_gt h] at index; cases index
  · rfl

theorem opCounterRead_badArgument {i : Byte} (h : 63 < i.toNat) :
    opCounterRead p i s = respond p .badArgument [] s := by
  rw [opCounterRead, routeArg_of_gt h]

theorem opSegmentStatus_badArgument {n : Byte} (h : 7 < n.toNat) :
    opSegmentStatus p n s = respond p .badArgument [] s := by
  rw [opSegmentStatus, segArg_of_gt h]

theorem opRouteLoad_badArgument {i m k t f : Byte} (c g : Byte)
    (h : 63 < i.toNat ∨ 127 < m.toNat ∨ 127 < k.toNat ∨ 127 < t.toNat ∨ 15 < f.toNat) :
    opRouteLoad p i c m k g t f s = respond p .badArgument [] s := by
  unfold opRouteLoad
  split
  next index profile =>
    refine if_neg ?_
    rcases h with h | h | h | h | h
    · rw [routeArg_of_gt h] at index; cases index
    · simp [sevenBit_of_gt h]
    · simp [sevenBit_of_gt h]
    · simp [sevenBit_of_gt h]
    · rw [profileArg_of_gt h] at profile; cases profile
  · rfl

theorem opPolicyLoad_badArgument {i a d : Byte} (f w r c b : Byte) (h : 15 < i.toNat ∨ a = 0 ∨ d = 0) :
    opPolicyLoad p i f w r c a d b s = respond p .badArgument [] s := by
  unfold opPolicyLoad
  split
  next profile =>
    refine if_neg ?_
    rintro ⟨amount, period⟩
    rcases h with h | h | h
    · rw [profileArg_of_gt h] at profile; cases profile
    · exact amount h
    · exact period h
  · rfl

theorem opTableCommit_badArgument (e : BitVec 16) {f : Byte} (h : 1 < f.toNat) :
    opTableCommit p e f s = respond p .badArgument [] s := by
  rw [opTableCommit, boolArg_of_gt h]

theorem opSegmentConfigure_badArgument {n v q t r a : Byte}
    (h : 7 < n.toNat ∨ v &&& 3 = 3 ∨ q = 0 ∨ 50 < q.toNat ∨ t = 0 ∨ 7 < r.toNat ∨ 1 < a.toNat) :
    opSegmentConfigure p n v q t r a s = respond p .badArgument [] s := by
  unfold opSegmentConfigure
  split
  next segment speed auto =>
    refine if_neg ?_
    rintro ⟨least, most, stretch, retry⟩
    rcases h with h | h | h | h | h | h | h
    · rw [segArg_of_gt h] at segment; cases segment
    · rw [speedOfByte_reserved h] at speed; cases speed
    · rw [h] at least; exact absurd least (by decide)
    · omega
    · exact stretch h
    · omega
    · rw [boolArg_of_gt h] at auto; cases auto
  · rfl

theorem opSegmentIsolate_badArgument {n : Byte} (h : 7 < n.toNat) :
    opSegmentIsolate p n s = respond p .badArgument [] s := by rw [opSegmentIsolate, segArg_of_gt h]

theorem opSegmentRestore_badArgument {n : Byte} (h : 7 < n.toNat) :
    opSegmentRestore p n s = respond p .badArgument [] s := by rw [opSegmentRestore, segArg_of_gt h]

theorem opSegmentRecover_badArgument {n : Byte} (h : 7 < n.toNat) :
    opSegmentRecover p n s = respond p .badArgument [] s := by rw [opSegmentRecover, segArg_of_gt h]

end badArgument

/-- Settles O20: each command answers an argument out of range before anything else. -/
theorem argumentsOutOfRangeRefused : Obligations.ArgumentsOutOfRangeRefused := by
  unfold Obligations.ArgumentsOutOfRangeRefused
  intro s p ha bad own
  have ownCode : own = portCode p := rfl
  refine ⟨fun q h => ?_, fun a w i m h => ?_, fun r i h => ?_, fun r i h => ?_, fun i h => ?_, fun n h => ?_,
    fun hf => ⟨fun q a w i m h => ?_, fun i c m k g t f h => ?_, fun i f w r c a d b h => ?_, fun e f h => ?_,
      fun n v q t r a h => ?_, fun n h => ⟨?_, ?_, ?_⟩⟩⟩
  · exact command_unrestricted_answer (o := .portStatus) ha rfl (opPortStatus_badArgument p s h)
  · rw [ownCode]
    exact command_unrestricted_answer (o := .portConfigure) ha (needsFull_ownPort ..)
      (opPortConfigure_badArgument p s _ (.inr h))
  · exact command_unrestricted_answer (o := .routeRead) ha rfl (opRouteRead_badArgument p s h)
  · exact command_unrestricted_answer (o := .policyRead) ha rfl (opPolicyRead_badArgument p s h)
  · exact command_unrestricted_answer (o := .counterRead) ha rfl (opCounterRead_badArgument p s h)
  · exact command_unrestricted_answer (o := .segmentStatus) ha rfl (opSegmentStatus_badArgument p s h)
  · exact command_full_answer (o := .portConfigure) ha hf (opPortConfigure_badArgument p s _ h)
  · exact command_full_answer (o := .routeLoad) ha hf (opRouteLoad_badArgument p s c g h)
  · exact command_full_answer (o := .policyLoad) ha hf (opPolicyLoad_badArgument p s f w r c b h)
  · exact command_full_answer (o := .tableCommit) ha hf (opTableCommit_badArgument p s _ h)
  · exact command_full_answer (o := .segmentConfigure) ha hf (opSegmentConfigure_badArgument p s h)
  · exact command_full_answer (o := .segmentIsolate) ha hf (opSegmentIsolate_badArgument p s h)
  · exact command_full_answer (o := .segmentRestore) ha hf (opSegmentRestore_badArgument p s h)
  · exact command_full_answer (o := .segmentRecover) ha hf (opSegmentRecover_badArgument p s h)

/-! ### IDENTIFY and PORT STATUS (R160, R161) -/

/-- Settles O16: the seven bytes are the constants of the part, the port and its rights. -/
theorem identifyReports : Obligations.IdentifyReports := by
  unfold Obligations.IdentifyReports
  intro s p ha
  exact command_unrestricted_answer (o := .identify) ha rfl rfl

/-- The report of a named port: the issuing port is in MGMT_WRITE and holds nothing (R161). -/
theorem opPortStatus_portCode (p q : Port) (s : State) :
    opPortStatus p (portCode q) s = respond p .ok
      ((if q = p then [0x02, 0x00, 0xFF, 0xFF, 0xFF]
        else [ctxStateCode (s.context q).state, s.heldSet q] ++ bytes16 ((s.context q).pin.getD 0xFFFF) ++
          [((s.context q).route.map fun i => BitVec.ofNat 8 i.val).getD 0xFF]) ++
        [rightsCode (s.record q).rights, (s.record q).storedAddr.setWidth 8]) s := by
  simp only [opPortStatus, portArg_portCode, reportedContext]
  by_cases h : q = p
  · simp only [if_pos h]
    rfl
  · simp only [if_neg h, List.append_assoc, List.singleton_append]

/-- Settles O17: the code of a port names it, and no other byte names one. -/
theorem portStatusReports : Obligations.PortStatusReports := by
  unfold Obligations.PortStatusReports
  intro s p ha
  refine ⟨fun q => ?_, fun b h0 h1 => ?_⟩
  · intro c r code tail
    have state : ctxStateCode c.state = code := rfl
    have settings : [rightsCode r.rights, r.storedAddr.setWidth 8] = tail := rfl
    refine (command_unrestricted_answer (o := .portStatus) (args := [portCode q]) ha rfl
      (opPortStatus_portCode p q s)).trans ?_
    rw [state, settings]
    split
    · rfl
    · cases (s.context q).route <;> rfl
  · exact command_unrestricted_answer (o := .portStatus) ha rfl (opPortStatus_badArgument p s (by bv_omega))

/-! ### PORT CONFIGURE and the rights commands (R158, R162, R181) -/

/-- The mask of a port's record decides that port's alert output alone (R181). -/
theorem evalAlert_withRecord (q : Port) (r : MgmtRecord) (s : State) :
    evalAlert q (withRecord q r s) = withRecord q r { s with
      log := { s.log with alerts := s.log.alerts.set q (alertLevel r.alertMask s.log.records) } } := by
  cases q <;> rfl

theorem opPortConfigure_portCode {p q : Port} {addr wait idle : Byte} (mask : BitVec 32) (s : State)
    (least : 1 ≤ addr.toNat) (most : addr.toNat ≤ 119) (hw : wait ≠ 0) (hi : idle ≠ 0) :
    opPortConfigure p (portCode q) addr wait idle mask s =
      respond p .ok [] (evalAlert q (withRecord q { s.record q with
        storedAddr := addr.setWidth 7, waitLimit := wait, idleLimit := idle,
        alertMask := mask &&& Config.alertMaskBits } s)) := by
  have range : managementAddrArg addr = true := by simp [managementAddrArg, least, most]
  simp only [opPortConfigure, portArg_portCode]
  exact if_pos ⟨range, hw, hi⟩

theorem word32_bytes (x : BitVec 32) :
    word32 (x.extractLsb' 24 8) (x.extractLsb' 16 8) (x.extractLsb' 8 8) (x.extractLsb' 0 8) = x := by
  unfold word32
  rw [BitVec.extractLsb'_append_extractLsb'_eq_extractLsb' (by decide),
    BitVec.extractLsb'_append_extractLsb'_eq_extractLsb' (by decide),
    BitVec.extractLsb'_append_extractLsb'_eq_extractLsb' (by decide)]
  simp

/-- PORT CONFIGURE reads its alert mask back from its four bytes (R184, R187). -/
theorem runCommand_portConfigure (p : Port) (q a w i : Byte) (mask : BitVec 32) (s : State) :
    runCommand p .portConfigure ([q, a, w, i] ++ bytes32 mask) s = opPortConfigure p q a w i mask s := by
  show opPortConfigure p q a w i (word32 _ _ _ _) s = _
  rw [word32_bytes]

/-- Settles O18: the row is executed on the issuing port without rights, and elsewhere with them. -/
theorem portSettingsAndRights : Obligations.PortSettingsAndRights := by
  unfold Obligations.PortSettingsAndRights
  intro s p ha
  refine ⟨fun q addr wait idle mask allowed least most hw hi => ?_, fun hf => ?_⟩
  · have executed : execPortConfigure p (portCode q) addr wait idle mask s =
        .next (dropReception p (opPortConfigure p (portCode q) addr wait idle mask s)) := by
      rw [← runCommand_portConfigure]
      rcases allowed with rfl | hf
      · exact command_unrestricted _ _ _ s ha (needsFull_ownPort ..)
      · exact command_full _ _ _ s ha hf
    rw [opPortConfigure_portCode mask s least most hw hi, dropReception_respond, evalAlert_withRecord] at executed
    exact executed
  · constructor
    · refine (command_full p .rightsGrant [] s ha hf).trans (congrArg _ ?_)
      exact dropReception_respond p .ok [] (modRecord (otherPort p) _ s)
    · refine (command_full p .rightsRevoke [] s ha hf).trans (congrArg _ ?_)
      exact dropReception_respond p .ok [] (modRecord (otherPort p) _ s)

/-! ### LOG PEEK and LOG POP (R168, R169, R179) -/

/-- What a look at the head of the log answers (R168, R188). -/
def peekAnswer (log : EventLog) : Status × List Byte :=
  match log.records with
  | [] => (.empty, 0 :: bytes16 log.lost)
  | r :: _ => (.ok, BitVec.ofNat 8 log.records.length :: bytes16 log.lost ++ recordBytes r)

theorem opLogPeek_eq (p : Port) (s : State) :
    opLogPeek p s = respond p (peekAnswer s.log).1 (peekAnswer s.log).2 s := by
  cases records : s.log.records <;> simp only [opLogPeek, peekAnswer, records]

/-- A log without records keeps both alert outputs (R181). -/
theorem opLogPop_eq (p : Port) (s : State) :
    opLogPop p s = respond p (peekAnswer s.log).1 (peekAnswer s.log).2 { s with log :=
      { s.log with
        records := s.log.records.tail, lost := 0
        alerts := if s.log.records = [] then s.log.alerts
          else ⟨alertLevel s.mgmt.a.alertMask s.log.records.tail,
            alertLevel s.mgmt.b.alertMask s.log.records.tail⟩ } } := by
  unfold opLogPop
  rw [opLogPeek_eq]
  cases records : s.log.records with
  | nil =>
    rw [if_pos rfl, ← records]
    exact if_neg (by simp [records])
  | cons r rest =>
    rw [if_neg (List.cons_ne_nil r rest), ← records]
    refine (if_pos (by simp [records])).trans ?_
    cases p <;> rfl

/-- Settles O30: both commands answer alike, and a pop leaves the rest of the log. -/
theorem logPeekAndPop : Obligations.LogPeekAndPop := by
  unfold Obligations.LogPeekAndPop
  intro s p ha count code two four form reply left alert
  have fields (r : LogRecord) : recordBytes r = form r := by
    obtain ⟨sequence, timestamp, ⟨kind, port, segment, upstream, route, detail⟩⟩ := r
    rcases port with _ | _ | _ <;> cases segment <;> cases upstream <;> cases route <;> rfl
  have answer (u : State) : answered p (peekAnswer s.log).1 (peekAnswer s.log).2 u = reply u := by
    cases records : s.log.records with
    | nil => simp only [peekAnswer, reply, records]; rfl
    | cons r rest => simp only [peekAnswer, reply, records, fields, count]; rfl
  constructor
  · exact (command_unrestricted_answer (o := .logPeek) (args := []) ha rfl (opLogPeek_eq p s)).trans
      (congrArg _ (answer s))
  · intro hf
    refine (command_full p .logPop [] s ha hf).trans (congrArg _ ?_)
    show dropReception p (opLogPop p s) = _
    rw [opLogPop_eq, dropReception_respond, answer]
    rfl

end Sys2Proof.Machine
end

section
/-! PROOFS. The order and the bound of the log and the alert levels: what keeps them, and the operations of the
device that leave the log and the alert masks as they are. -/

namespace Sys2Proof.Machine

-- One thread at a time elaborates this part: the compile stays within the check's memory.
set_option Elab.async false

/-! ### Consecutive records (R176) -/

/-- A record stored at the tail under the next number continues the numbering. -/
theorem consecutive_concat (next : BitVec 16) (l : List LogRecord) (time : BitVec 32) (e : Event)
    (h : consecutive next l = true) : consecutive (next + 1) (l ++ [⟨next, time, e⟩]) = true := by
  induction l with
  | nil => simp [consecutive]
  | cons r l ih =>
    cases l with
    | nil => simpa [consecutive] using h
    | cons r' l =>
      simp only [consecutive, Bool.and_eq_true] at h
      obtain ⟨first, rest⟩ := h
      exact Bool.and_eq_true_iff.mpr ⟨first, ih rest⟩

/-- The records after the head are consecutive too. -/
theorem consecutive_tail (next : BitVec 16) (l : List LogRecord) (h : consecutive next l = true) :
    consecutive next l.tail = true := by
  match l with
  | [] | [_] => rfl
  | _ :: _ :: _ => exact (Bool.and_eq_true_iff.mp h).2

/-! ### The invariant, and the updates of the log and of the masks (R175, R181) -/

theorem logOk_iff (s : State) :
    LogOk s ↔ s.log.records.length ≤ 32 ∧ consecutive s.log.nextSequence s.log.records = true ∧
      ∀ p, s.log.alerts.get p = alertLevel (s.record p).alertMask s.log.records :=
  ⟨fun h => ⟨h.1, h.2.1, fun p => match p with | .a => h.2.2.1 | .b => h.2.2.2⟩,
    fun h => ⟨h.1, h.2.1, onPorts_of_forall h.2.2⟩⟩

/-- The invariant reads the log and the alert masks. -/
theorem logOk_congr {s t : State} (log : t.log = s.log)
    (masks : ∀ p, (t.record p).alertMask = (s.record p).alertMask) : LogOk t ↔ LogOk s := by
  simp only [logOk_iff, log, masks]

theorem logOk_of_unexamined {s t : State} (h : Unexamined s t) : LogOk t ↔ LogOk s :=
  logOk_congr h.log fun p => by rw [State.record, h.mgmt, State.record]

/-- An evaluation of both outputs gives them the levels of the stored records (R181). -/
theorem logOk_evalAlerts {s : State} (bound : s.log.records.length ≤ 32)
    (order : consecutive s.log.nextSequence s.log.records = true) : LogOk (evalAlerts s) :=
  (logOk_iff _).mpr ⟨bound, order, fun p => match p with | .a => rfl | .b => rfl⟩

/-- A log with room takes the event and evaluates both outputs; a full log keeps its records (R175). -/
@[simp] theorem LogOk.raise {s : State} (h : LogOk s) (e : Event) : LogOk (raise e s) := by
  obtain ⟨bound, order, level⟩ := (logOk_iff s).mp h
  unfold Machine.raise
  split
  next room =>
    refine logOk_evalAlerts ?_ (consecutive_concat _ _ _ _ order)
    rw [List.length_append]
    exact room
  · exact (logOk_iff _).mpr ⟨bound, order, level⟩

/-- The alert mask of one port is written, and that port's output evaluated (R181). -/
theorem LogOk.evalAlert_modRecord {s : State} (h : LogOk s) (p : Port) (f : MgmtRecord → MgmtRecord) :
    LogOk (evalAlert p (modRecord p f s)) := by
  obtain ⟨bound, order, level⟩ := (logOk_iff s).mp h
  refine (logOk_iff _).mpr ⟨bound, order, fun q => ?_⟩
  have same : (evalAlert p (modRecord p f s)).record q = (modRecord p f s).record q := rfl
  rw [same, evalAlert, get_set]
  split
  next own => rw [own]
  next other =>
    rw [modRecord_record, if_neg other]
    exact level q

/-- A record changes and keeps its alert mask. -/
theorem logOk_modRecord (p : Port) (f : MgmtRecord → MgmtRecord) (s : State)
    (mask : ∀ r, (f r).alertMask = r.alertMask := by exact fun _ => rfl) :
    LogOk (modRecord p f s) ↔ LogOk s := by
  refine logOk_congr rfl fun q => ?_
  rw [modRecord_record]
  split
  next own => rw [mask, own]
  · rfl

@[simp] theorem logOk_ite (c : Prop) [Decidable c] (s t : State) :
    LogOk (if c then s else t) ↔ if c then LogOk s else LogOk t := by split <;> rfl

/-! ### The operations the commands share -/

section shared

variable (p : Port) (n : SegId) (s : State)

@[simp] theorem logOk_modEngine (f : Engine → Engine) : LogOk (modEngine p f s) ↔ LogOk s := .rfl
@[simp] theorem logOk_modContext (f : Context → Context) : LogOk (modContext p f s) ↔ LogOk s := .rfl
@[simp] theorem logOk_modPath (f : Path → Path) : LogOk (modPath p f s) ↔ LogOk s := .rfl
@[simp] theorem logOk_modSegment (f : Segment → Segment) : LogOk (modSegment n f s) ↔ LogOk s := .rfl
@[simp] theorem logOk_modTable (f : TableControl → TableControl) : LogOk (modTable f s) ↔ LogOk s := .rfl
@[simp] theorem logOk_pending (l : List Instr) : LogOk { s with pending := l } ↔ LogOk s := .rfl
@[simp] theorem logOk_waitList (l : List Request) : LogOk { s with waitList := l } ↔ LogOk s := .rfl
@[simp] theorem logOk_credits (v : Vector Credit 16) : LogOk { s with credits := v } ↔ LogOk s := .rfl
@[simp] theorem logOk_freeChoices (k : Nat) : LogOk { s with freeChoices := k } ↔ LogOk s := .rfl
@[simp] theorem logOk_timestamp (time : BitVec 32) :
    LogOk { s with log := { s.log with timestamp := time } } ↔ LogOk s := .rfl

@[simp] theorem logOk_respond (x : Status) (d : List Byte) : LogOk (respond p x d s) ↔ LogOk s :=
  logOk_modRecord ..
@[simp] theorem logOk_respondPending (c : PendingCommand) : LogOk (respondPending p c s) ↔ LogOk s :=
  logOk_modRecord ..
@[simp] theorem logOk_respondFinal (x : Status) (d : List Byte) : LogOk (respondFinal p x d s) ↔ LogOk s :=
  logOk_modRecord ..
@[simp] theorem logOk_dropReception : LogOk (dropReception p s) ↔ LogOk s := logOk_modRecord ..

@[simp] theorem logOk_answerAddress (a : Ack) : LogOk (answerAddress p a s) ↔ LogOk s := .rfl
@[simp] theorem logOk_giveAck (a : Ack) : LogOk (giveAck p a s) ↔ LogOk s := .rfl
@[simp] theorem logOk_supply (b : Byte) : LogOk (supply p b s) ↔ LogOk s := .rfl
@[simp] theorem logOk_requestPin : LogOk (requestPin p s) ↔ LogOk s := by simp [requestPin]
@[simp] theorem logOk_releasePin : LogOk (releasePin p s) ↔ LogOk s := by rw [releasePin_eq]; rfl
@[simp] theorem logOk_releaseSegments (byAbort : Bool) (keep : SegId → Bool) :
    LogOk (releaseSegments p byAbort keep s) ↔ LogOk s := .rfl
@[simp] theorem logOk_releaseAll (byAbort : Bool) : LogOk (releaseAll p byAbort s) ↔ LogOk s := .rfl
@[simp] theorem logOk_grant (g : SegSet) : LogOk (grant p g s) ↔ LogOk s := .rfl
@[simp] theorem logOk_examine : LogOk (examine s) ↔ LogOk s := logOk_of_unexamined (examine_unexamined s)
@[simp] theorem logOk_withdraw : LogOk (withdraw p s) ↔ LogOk s := logOk_of_unexamined (withdraw_unexamined p s)
@[simp] theorem logOk_countDenial (i : RouteId) : LogOk (countDenial i s) ↔ LogOk s := .rfl
@[simp] theorem logOk_countHit (i : RouteId) : LogOk (countHit i s) ↔ LogOk s := .rfl
@[simp] theorem logOk_abortHold : LogOk (abortHold p s) ↔ LogOk s := by rw [abortHold_eq]; rfl
@[simp] theorem logOk_abort (r : AbortReason) : LogOk (abort p r s) ↔ LogOk s := by simp [abort]
@[simp] theorem logOk_enterIdle : LogOk (enterIdle n s) ↔ LogOk s := by simp [enterIdle]
@[simp] theorem logOk_enterRecovering (q : Option Port) : LogOk (enterRecovering n q s) ↔ LogOk s := .rfl

end shared

/-! ### The forwarding path (chapter 6) -/

section forwarding

variable (p : Port) (s : State)

@[simp] theorem logOk_addressAccepted : LogOk (addressAccepted p s) ↔ LogOk s := .rfl
@[simp] theorem logOk_addressRefused : LogOk (addressRefused p s) ↔ LogOk s := by simp [addressRefused]
@[simp] theorem logOk_formAddressOutcome : LogOk (formAddressOutcome p s) ↔ LogOk s := by
  simp [formAddressOutcome]
@[simp] theorem logOk_countByte : LogOk (countByte p s) ↔ LogOk s := .rfl
@[simp] theorem logOk_forwardWrite (b : Byte) : LogOk (forwardWrite p b s) ↔ LogOk s := .rfl
@[simp] theorem logOk_formWriteAcknowledge : LogOk (formWriteAcknowledge p s) ↔ LogOk s := by
  simp [formWriteAcknowledge]
@[simp] theorem logOk_beginRead : LogOk (beginRead p s) ↔ LogOk s := .rfl
@[simp] theorem logOk_readForwarding : LogOk (readForwarding p s) ↔ LogOk s := by simp [readForwarding]
@[simp] theorem logOk_endRead : LogOk (endRead p s) ↔ LogOk s := .rfl
@[simp] theorem logOk_endPresented : LogOk (endPresented p s) ↔ LogOk s := by simp [endPresented]
@[simp] theorem logOk_mirrorAcknowledge (a : Ack) : LogOk (mirrorAcknowledge p a s) ↔ LogOk s := by
  cases a <;> simp [mirrorAcknowledge]

end forwarding

/-! ### The segment controllers (chapter 7) -/

section segments

variable (n : SegId) (s : State)

@[simp] theorem logOk_countFault : LogOk (countFault n s) ↔ LogOk s := .rfl
@[simp] theorem logOk_countDeparture : LogOk (countDeparture n s) ↔ LogOk s := .rfl
@[simp] theorem logOk_countLoss : LogOk (countLoss n s) ↔ LogOk s := .rfl
@[simp] theorem logOk_measure (f : LineMeasure → LineMeasure) : LogOk (measure n f s) ↔ LogOk s := .rfl
@[simp] theorem logOk_stuckMeasured (l : Line) : LogOk (stuckMeasured n l s) ↔ LogOk s := .rfl
@[simp] theorem logOk_conditionSeen : LogOk (conditionSeen n s) ↔ LogOk s := .rfl
@[simp] theorem logOk_recoveryToForeign (r : RecoveringRec) : LogOk (recoveryToForeign n r s) ↔ LogOk s := by
  unfold recoveryToForeign; split <;> simp

end segments

/-! ### The table controller and the management dispatcher (chapters 3 and 8) -/

section commands

variable (p : Port) (s : State)

@[simp] theorem logOk_loadStaging (f : Bank → Bank) : LogOk (loadStaging p f s) ↔ LogOk s := by
  simp [loadStaging]
@[simp] theorem logOk_opRouteLoad (i c m k g t f : Byte) : LogOk (opRouteLoad p i c m k g t f s) ↔ LogOk s := by
  unfold opRouteLoad; split <;> simp
@[simp] theorem logOk_opPolicyLoad (i f w r c a d b : Byte) :
    LogOk (opPolicyLoad p i f w r c a d b s) ↔ LogOk s := by unfold opPolicyLoad; split <;> simp
@[simp] theorem logOk_opRouteRead (r i : Byte) : LogOk (opRouteRead p r i s) ↔ LogOk s := by
  unfold opRouteRead; (repeat' split) <;> simp
@[simp] theorem logOk_opPolicyRead (r i : Byte) : LogOk (opPolicyRead p r i s) ↔ LogOk s := by
  unfold opPolicyRead; (repeat' split) <;> simp
@[simp] theorem logOk_opCounterRead (i : Byte) : LogOk (opCounterRead p i s) ↔ LogOk s := by
  unfold opCounterRead; split <;> simp
@[simp] theorem logOk_opTableStatus : LogOk (opTableStatus p s) ↔ LogOk s := logOk_respond ..
@[simp] theorem logOk_opTableDiscard : LogOk (opTableDiscard p s) ↔ LogOk s := by simp [opTableDiscard]
@[simp] theorem logOk_forcedAborts (g : BitVec 16) : LogOk (forcedAborts g s) ↔ LogOk s := by
  simp [forcedAborts]
@[simp] theorem logOk_opIdentify : LogOk (opIdentify p s) ↔ LogOk s := logOk_respond ..
@[simp] theorem logOk_opPortStatus (q : Byte) : LogOk (opPortStatus p q s) ↔ LogOk s := by
  unfold opPortStatus; split <;> simp
@[simp] theorem logOk_opRightsGrant : LogOk (opRightsGrant p s) ↔ LogOk s :=
  (logOk_respond ..).trans (logOk_modRecord ..)
@[simp] theorem logOk_opRightsRevoke : LogOk (opRightsRevoke p s) ↔ LogOk s :=
  (logOk_respond ..).trans (logOk_modRecord ..)
@[simp] theorem logOk_opSegmentStatus (n : Byte) : LogOk (opSegmentStatus p n s) ↔ LogOk s := by
  unfold opSegmentStatus; split <;> simp
@[simp] theorem logOk_opSegmentConfigure (n v q t r a : Byte) :
    LogOk (opSegmentConfigure p n v q t r a s) ↔ LogOk s := by unfold opSegmentConfigure; split <;> simp
@[simp] theorem logOk_opSegmentRecover (n : Byte) : LogOk (opSegmentRecover p n s) ↔ LogOk s := by
  unfold opSegmentRecover; (repeat' split) <;> simp
@[simp] theorem logOk_opLogPeek : LogOk (opLogPeek p s) ↔ LogOk s := by rw [opLogPeek_eq, logOk_respond]

@[simp] theorem logOk_resetCredits : LogOk (resetCredits s) ↔ LogOk s := .rfl

end commands

/-! ### The upstream ports (chapters 1 and 4) -/

section upstream

variable (p : Port) (s : State)

@[simp] theorem logOk_openTransaction : LogOk (openTransaction p s) ↔ LogOk s := logOk_modRecord ..
@[simp] theorem logOk_leaveForwarding : LogOk (leaveForwarding p s) ↔ LogOk s := by simp [leaveForwarding]
@[simp] theorem logOk_leaveManagement : LogOk (leaveManagement p s) ↔ LogOk s := logOk_modRecord ..
@[simp] theorem logOk_takeAddress (a : Addr) (d : Direction) : LogOk (takeAddress p a d s) ↔ LogOk s := .rfl
@[simp] theorem logOk_decideManagement (d : Direction) : LogOk (decideManagement p d s) ↔ LogOk s := by
  refine (logOk_answerAddress ..).trans ?_
  cases d with
  | write => exact (logOk_modRecord p _ _).trans (logOk_leaveForwarding p s)
  | read => exact (logOk_modRecord p _ _).trans (logOk_leaveForwarding p s)
@[simp] theorem logOk_decideNoMatch : LogOk (decideNoMatch p s) ↔ LogOk s := by simp [decideNoMatch]
@[simp] theorem logOk_keepSegments (g : SegSet) : LogOk (keepSegments p g s) ↔ LogOk s := .rfl
@[simp] theorem logOk_writeManagement (b : Byte) : LogOk (writeManagement p b s) ↔ LogOk s := by
  unfold writeManagement
  split
  · exact logOk_giveAck ..
  · exact (logOk_giveAck ..).trans (logOk_modRecord p _ s)
@[simp] theorem logOk_readManagement : LogOk (readManagement p s) ↔ LogOk s := by
  unfold readManagement
  split
  · exact (logOk_supply ..).trans (logOk_modRecord p _ s)
  · exact logOk_supply ..

end upstream

end Sys2Proof.Machine
end

section
/-! PROOFS. The operations that raise an event, or that remove records or write a mask, keep the log in order and the
alert outputs at their levels, and so does every step. -/

namespace Sys2Proof.Machine

-- One thread at a time elaborates this part: the compile stays within the check's memory.
set_option Elab.async false

section logOk

variable {s : State} (h : LogOk s)
include h

/-! ### Refusals, isolations and faults (R69, R93, R135, R140) -/

@[simp] theorem LogOk.refuse (p : Port) (k : EventKind) (n : Option SegId) (log : Bool) :
    LogOk (refuse p k n log s) := by
  unfold Machine.refuse
  dsimp only
  split <;> simp [h]

omit h in
/-- What one element keeps, a pass over the list keeps. -/
theorem LogOk.foldl {α : Type} {f : State → α → State} (hf : ∀ s x, LogOk s → LogOk (f s x)) (l : List α)
    {s : State} (h : LogOk s) : LogOk (l.foldl f s) := by
  induction l generalizing s with
  | nil => exact h
  | cons x l ih => exact ih (hf s x h)

/-- Each request that names the segment is refused, or loses a member (R93). -/
@[simp] theorem LogOk.arbiterIsolation (n : SegId) : LogOk (arbiterIsolation n s) := by
  have requests : LogOk ((s.waitList.filter fun r => segMem r.segments n).foldl
      (fun s r => isolateRequest n r s) s) :=
    .foldl (fun s r hs => by simp [isolateRequest, hs]) _ h
  simp [Machine.arbiterIsolation, h, requests]

@[simp] theorem LogOk.enterIsolated (n : SegId) (p : Option Port) (d : Byte) : LogOk (enterIsolated n p d s) := by
  simp [Machine.enterIsolated, h]

@[simp] theorem LogOk.finishIsolation (n : SegId) (i : IsolationPending) : LogOk (finishIsolation n i s) := by
  simp [Machine.finishIsolation, h]

@[simp] theorem LogOk.faultTransition (n : SegId) (p : Option Port) : LogOk (faultTransition n p s) := by
  simp [Machine.faultTransition, h]

@[simp] theorem LogOk.closingFault (n : SegId) (c : ClosingRec) : LogOk (closingFault n c s) := by
  unfold Machine.closingFault; split <;> simp [h]

@[simp] theorem LogOk.closingToUnsynced (n : SegId) (c : ClosingRec) (high : Bool) :
    LogOk (closingToUnsynced n c high s) := by
  unfold Machine.closingToUnsynced; split <;> simp [h]

/-! ### The forwarding path (chapter 6) -/

@[simp] theorem LogOk.addressReport (p : Port) (n : SegId) (r : AddrReport) : LogOk (addressReport p n r s) := by
  simp [Machine.addressReport, raiseExhausted, h]

@[simp] theorem LogOk.writeForwarding (p : Port) (b : Byte) : LogOk (writeForwarding p b s) := by
  simp [Machine.writeForwarding, limitWrite, h]

@[simp] theorem LogOk.presentRead (p : Port) (b : Byte) : LogOk (presentRead p b s) := by
  simp [Machine.presentRead, h]

/-! ### The segment controllers (chapter 7) -/

@[simp] theorem LogOk.loseAddress (n : SegId) (x : HeldRec) : LogOk (loseAddress n x s) := by
  simp [Machine.loseAddress, h]

@[simp] theorem LogOk.loseData (n : SegId) (x : HeldRec) : LogOk (loseData n x s) := by
  simp [Machine.loseData, h]

@[simp] theorem LogOk.heldBusError (n : SegId) (x : HeldRec) (stop : Bool) : LogOk (heldBusError n x stop s) := by
  simp [Machine.heldBusError, h]

/-- Whichever start comes first, the foreign one keeps the invariant (R13, R134). -/
@[simp] theorem LogOk.heldForeignStart (n : SegId) (x : HeldRec) : LogOk (heldForeignStart n x s) := by
  simp [Machine.heldForeignStart, h]

@[simp] theorem LogOk.closingBusError (n : SegId) (c : ClosingRec) (stop : Bool) :
    LogOk (closingBusError n c stop s) := by simp [Machine.closingBusError, h]

@[simp] theorem LogOk.recoverySucceeds (n : SegId) (r : RecoveringRec) (k : Nat) :
    LogOk (recoverySucceeds n r k s) := by
  unfold Machine.recoverySucceeds; dsimp only; split <;> simp [h]

@[simp] theorem LogOk.recoveryFails (n : SegId) (r : RecoveringRec) : LogOk (recoveryFails n r s) := by
  unfold Machine.recoveryFails; dsimp only; split
  · simp [h]
  · split <;> simp [h]

@[simp] theorem LogOk.endAttempt (n : SegId) (r : AttemptResult) : LogOk (endAttempt n r s) := by
  unfold Machine.endAttempt; (repeat' split) <;> simp [h]

/-! ### The address decision (R66 to R72) -/

@[simp] theorem LogOk.request (p : Port) (g : SegSet) (k : IsolationHandling) : LogOk (request p g k s) := by
  unfold Machine.request
  dsimp only
  split
  · simp [h]
  · exact .foldl (fun s n hs => hs.arbiterIsolation n) _ (by simp [h])

@[simp] theorem LogOk.placeClaim (p : Port) (c : Claim) (g : SegSet) : LogOk (placeClaim p c g s) := by
  simp [Machine.placeClaim, h]

@[simp] theorem LogOk.decideForward (p : Port) (a : Addr) (d : Direction) (c : Bool) (e : RouteEntry)
    (g : SegSet) (t : Addr) (i : ProfileId) (f : Profile) : LogOk (decideForward p a d c e g t i f s) := by
  cases claim : claimSet s g (routeAggregation g f) <;> simp [Machine.decideForward, claim, h]

@[simp] theorem LogOk.decideRoute (p : Port) (a : Addr) (d : Direction) : LogOk (decideRoute p a d s) := by
  simp only [Machine.decideRoute]
  split
  · simp [h]
  · split <;> simp [h]

/-! ### The commands that write the log or a mask (R162, R169, R170) -/

/-- PORT CONFIGURE evaluates the output of the port whose mask it writes (R162, R181). -/
@[simp] theorem LogOk.opPortConfigure (p : Port) (q a w i : Byte) (m : BitVec 32) :
    LogOk (opPortConfigure p q a w i m s) := by
  unfold Machine.opPortConfigure
  split
  · simp [h]
  · split
    · exact (logOk_respond ..).mpr (h.evalAlert_modRecord ..)
    · simp [h]

/-- LOG POP evaluates both outputs where it removes a record (R169). -/
@[simp] theorem LogOk.opLogPop (p : Port) : LogOk (opLogPop p s) := by
  obtain ⟨bound, order, level⟩ := (logOk_iff s).mp h
  rw [opLogPop_eq, logOk_respond, logOk_iff]
  refine ⟨Nat.le_trans (by simp) bound, consecutive_tail _ _ order, fun q => ?_⟩
  cases records : s.log.records with
  | nil =>
    rw [records] at level
    exact level q
  | cons r rest => cases q <;> rfl

omit h in
/-- An emptied log drives no output (R172, R181). -/
@[simp] theorem logOk_emptyLog (s : State) : LogOk (emptyLog s) := logOk_evalAlerts (Nat.zero_le _) rfl

omit h in
/-- CONTEXT RESET empties the log (R170). -/
@[simp] theorem logOk_opContextReset (p : Port) (s : State) : LogOk (opContextReset p s) := by
  simp [Machine.opContextReset]

/-! ### The other commands that raise events (R53, R141, R142) -/

@[simp] theorem LogOk.takeCommit (p : Port) (force : Bool) : LogOk (takeCommit p force s) := by
  refine (logOk_respond ..).mpr ?_
  split
  · exact (logOk_forcedAborts ..).mpr (.raise (by exact h) _)
  · exact h

@[simp] theorem LogOk.opTableCommit (p : Port) (e : BitVec 16) (f : Byte) : LogOk (opTableCommit p e f s) := by
  unfold Machine.opTableCommit; (repeat' split) <;> simp [h]

@[simp] theorem LogOk.endCopyBack : LogOk (endCopyBack s) := by
  simp only [Machine.endCopyBack]; split <;> simp [h]

@[simp] theorem LogOk.isolateHeld (p holder : Port) (n : SegId) : LogOk (isolateHeld p holder n s) := by
  simp only [Machine.isolateHeld]; split <;> simp [h]

@[simp] theorem LogOk.opSegmentIsolate (p : Port) (n : Byte) : LogOk (opSegmentIsolate p n s) := by
  unfold Machine.opSegmentIsolate
  split
  · simp [h]
  · split
    case h_4 r _ => cases r.requestedBy <;> simp [h]
    case h_6 c _ => split <;> simp [h]
    all_goals simp [h]

@[simp] theorem LogOk.opSegmentRestore (p : Port) (n : Byte) : LogOk (opSegmentRestore p n s) := by
  unfold Machine.opSegmentRestore; split <;> simp [h]

/-! ### The hand-over of a management write (R148, R150) -/

@[simp] theorem LogOk.executeCommand (p : Port) (o : MgmtOp) (args : List Byte) :
    LogOk (executeCommand p o args s) := by
  have executed : LogOk (runCommand p o args s) := by
    apply runCommand_induction (P := LogOk)
    case portConfigure => exact h.opPortConfigure p
    case logPop => exact h.opLogPop p
    case contextReset => exact logOk_opContextReset p s
    case tableCommit => exact h.opTableCommit p
    case segmentIsolate => exact h.opSegmentIsolate p
    case segmentRestore => exact h.opSegmentRestore p
    all_goals intros; simp [h]
  simp [Machine.executeCommand, h, executed]

@[simp] theorem LogOk.examineReception (p : Port) (r : Reception) : LogOk (examineReception p r s) := by
  unfold Machine.examineReception
  split
  · exact h
  split
  · simp [h]
  unfold examineBytes
  dsimp only
  split
  · simp [h]
  · split <;> simp [h]

@[simp] theorem LogOk.handOver (p : Port) : LogOk (handOver p s) := by
  unfold Machine.handOver; split <;> simp [h]

/-! ### The phase boundaries (R63, R64, R80) -/

@[simp] theorem LogOk.raiseTransaction (p : Port) : LogOk (raiseTransaction p s) := by
  simp [Machine.raiseTransaction, h]

@[simp] theorem LogOk.closePhase (p : Port) : LogOk (closePhase p s) := by
  unfold Machine.closePhase; split <;> simp [h]

@[simp] theorem LogOk.closeTransaction (p : Port) : LogOk (closeTransaction p s) := by
  unfold Machine.closeTransaction; split <;> simp [h]

@[simp] theorem LogOk.upstreamStart (p : Port) : LogOk (upstreamStart p s) := by
  unfold Machine.upstreamStart
  split
  · exact (logOk_openTransaction p s).mpr h
  · simp [repeatTransaction, reported, h]

end logOk

/-! ### Every command -/

/-- Whatever next state the outcome has, the invariant holds in it. -/
def Logged (o : Host.Outcome State Fault Refusal) : Prop := ∀ t, o = .next t → LogOk t

section exec

variable {s : State} (h : LogOk s)
include h

theorem logged_act {f : State → State} (hf : LogOk (f s)) : Logged (act f s) := by
  rintro t ⟨⟩
  split
  · exact h
  · exact hf

theorem logged_reported {p : Port} {f : State → State} (hf : LogOk (f s)) : Logged (act (reported p f) s) :=
  logged_act h (by simp [reported, h, hf])

theorem logged_stop (p : Port) : Logged (execStop p s) :=
  logged_reported h (by simp [h, logOk_modRecord])

theorem logged_managementWrite (p : Port) (bytes : List Byte) : Logged (execManagementWrite p bytes s) :=
  logged_act h (by simp [h])

theorem logged_command (p : Port) (o : MgmtOp) (args : List Byte) : Logged (command p o args s) :=
  logged_act h (by simp [h])

theorem logged_timestampTick : Logged (execTimestampTick s) := logged_act h ((logOk_timestamp s _).mpr h)

/-- Two events, then the way out of the state (R133, R135). -/
theorem logged_stretchFault (n : SegId) : Logged (execStretchFault n s) := by
  have events (f : LineMeasure → LineMeasure) (limit fault : Event) :
      LogOk (raise fault (raise limit (measure n f s))) :=
    (((logOk_measure n s f).mpr h).raise limit).raise fault
  exact logged_act h (by split <;> simp [h, events])

theorem logged_arbitrationLoss (n : SegId) (point : LossPoint) : Logged (execArbitrationLoss n point s) :=
  logged_act h (by cases point <;> split <;> simp [h])

theorem logged_closingStopDriven (n : SegId) : Logged (execClosingStopDriven n s) := by
  refine logged_act h ?_
  split
  next c _ => cases c.isolation <;> simp [h]
  · exact h

/-- A recovery that cannot end so has no next state (R137). -/
theorem logged_recoveryAttemptEnd (n : SegId) (r : AttemptResult) : Logged (execRecoveryAttemptEnd n r s) := by
  cases r with
  | failure => exact logged_act h (h.endAttempt n .failure)
  | success pulses =>
    unfold execRecoveryAttemptEnd
    dsimp only
    split
    · exact logged_act h (h.endAttempt n (.success pulses))
    · rintro t ⟨⟩

/-- Every command keeps the invariant. -/
theorem logged_exec (c : Instr) : Logged (exec c s) := by
  cases c
  case powerOn high | rstAssert high =>
    rintro t ⟨⟩
    exact logOk_atReset high
  case resetEnd =>
    rintro t ⟨⟩
    split <;> exact h
  case start p | repeatedStart p => exact logged_act h (h.upstreamStart p)
  case stop p => exact logged_stop h p
  case managementWrite p bytes => exact logged_managementWrite h p bytes
  case address | controllerAcknowledge | byteComplete | busError => exact logged_reported h (by simp [h])
  case writeByte p b => exact logged_reported h (by cases (s.context p).state <;> simp [h])
  case readByteWanted p => exact logged_reported h (by cases (s.context p).state <;> simp [h])
  case addressWaitLimit | idleLimit | refillTimer | quietIntervalObserved | addressOutcome
    | lineLowWithoutStart | copyBackEnd => exact logged_act h (by simp [h])
  case timestampTick => exact logged_timestampTick h
  case deferredQuietObserved | writeAcknowledge | readByteReceived | acknowledgeSlotDone | stretchBudget
    | segmentStartSeen | segmentStopSeen | stuckLineFault | recoveryWaitEnd =>
    dsimp only [exec, execDeferredQuietObserved, execWriteAcknowledge, execReadByteReceived,
      execAcknowledgeSlotDone, execStretchBudget, execSegmentStartSeen, execSegmentStopSeen,
      execStuckLineFault, execRecoveryWaitEnd]
    refine logged_act h ?_
    split <;> simp [h]
  case arbitrationLoss n point => exact logged_arbitrationLoss h n point
  case stretchFault n => exact logged_stretchFault h n
  case closingStopDriven n => exact logged_closingStopDriven h n
  case recoveryAttemptEnd n r => exact logged_recoveryAttemptEnd h n r
  all_goals exact logged_command h _ _ _

end exec

/-- Settles O54: a step leaves the state, or runs a command, which keeps the invariant. -/
theorem logOrderAndAlertsKept : Obligations.LogOrderAndAlertsKept := by
  unfold Obligations.LogOrderAndAlertsKept
  intro s t h hstep
  unfold step at hstep
  split at hstep
  · cases hstep
    exact h
  next c rest _ => exact logged_exec ((logOk_pending s rest).mpr h) c t hstep

end Sys2Proof.Machine
end

section
/-! PROOFS. What one step does, by the front of the queue. -/

namespace Sys2Proof.Machine

variable {s : State}

/-- The command at the front runs on the state that has already lost it. -/
theorem step_of_pending_cons {c : Instr} {rest : List Instr} (h : s.pending = c :: rest) :
    step s = exec c { s with pending := rest } := by
  simp only [step, h]

/-- With nothing queued the block idles (the model's choice, notes/assumptions/3). -/
theorem step_of_pending_nil (h : s.pending = []) : step s = .next s := by
  simp only [step, h]

/-- Settles O1: the two equations of a step, one for each form of the queue. -/
theorem stepRunsFrontCommand : Obligations.StepRunsFrontCommand :=
  ⟨fun _ _ _ => step_of_pending_cons, fun _ => step_of_pending_nil⟩

end Sys2Proof.Machine
end
